-- ==== Sys2Proof/Word.lean ====
section
/-! DEFINITION. The words of the block (00_scope.md R7, R8) and the shapes that hold one value per lane (R12). -/

namespace Sys2Proof

/-- A byte of a stream (20_memory.md R50). -/
abbrev Byte := BitVec 8

/-- A U32 lane or k word: `W32` = 32 bits (00_scope.md R7). -/
abbrev Word32 := BitVec 32

/-- A U64 lane or k word: `W64` = 64 bits (00_scope.md R7). -/
abbrev Word64 := BitVec 64

/-- One value per lane of U32 (`NLANE32` = 4). -/
structure Quad (α : Type) where
  h1 : α
  h2 : α
  h3 : α
  h4 : α
  deriving DecidableEq, Repr

/-- One value per lane of U64 (`NLANE64` = 2). -/
structure Duo (α : Type) where
  h1 : α
  h2 : α
  deriving DecidableEq, Repr

/-- A lane index of U32, 1 to 4 (00_scope.md R12). -/
inductive Lane4 where
  | one
  | two
  | three
  | four
  deriving DecidableEq, Repr

/-- A lane index of U64, 1 to 2 (00_scope.md R12). -/
inductive Lane2 where
  | one
  | two
  deriving DecidableEq, Repr

end Sys2Proof
end

