-- ==== Sys2Proof/Machine/Lanes.lean ====
section
/-! DEFINITION. Reading and writing one lane, and the order of the lanes (00_scope.md R12). -/

namespace Sys2Proof

/-- The lanes of U32 in the order every loop of the spec visits them. -/
def Lane4.all : List Lane4 := [.one, .two, .three, .four]

/-- The lanes of U64 in order. -/
def Lane2.all : List Lane2 := [.one, .two]

/-- `succ4(i) = (i mod 4) + 1` (R12, 90_conflicts.md C2). -/
def Lane4.succ : Lane4 → Lane4
  | .one => .two
  | .two => .three
  | .three => .four
  | .four => .one

/-- `succ2(i) = (i mod 2) + 1` (R12). -/
def Lane2.succ : Lane2 → Lane2
  | .one => .two
  | .two => .one

/-- i - 1: how many lanes stand before lane i. -/
def Lane4.before : Lane4 → Nat
  | .one => 0
  | .two => 1
  | .three => 2
  | .four => 3

/-- i - 1, for a lane of U64. -/
def Lane2.before : Lane2 → Nat
  | .one => 0
  | .two => 1

/-- The lane with b lanes before it: lane b + 1. -/
def Lane4.after : Nat → Lane4
  | 0 => .one
  | 1 => .two
  | 2 => .three
  | _ => .four

/-- The lane of U64 with b lanes before it. -/
def Lane2.after : Nat → Lane2
  | 0 => .one
  | _ => .two

/-- `h[i]` (R12). -/
def Quad.get {α : Type} (q : Quad α) : Lane4 → α
  | .one => q.h1
  | .two => q.h2
  | .three => q.h3
  | .four => q.h4

/-- `h[i] <- v` (R12). -/
def Quad.set {α : Type} (q : Quad α) (i : Lane4) (v : α) : Quad α :=
  match i with
  | .one => ⟨v, q.h2, q.h3, q.h4⟩
  | .two => ⟨q.h1, v, q.h3, q.h4⟩
  | .three => ⟨q.h1, q.h2, v, q.h4⟩
  | .four => ⟨q.h1, q.h2, q.h3, v⟩

/-- `h[i]` (R12). -/
def Duo.get {α : Type} (q : Duo α) : Lane2 → α
  | .one => q.h1
  | .two => q.h2

/-- `h[i] <- v` (R12). -/
def Duo.set {α : Type} (q : Duo α) (i : Lane2) (v : α) : Duo α :=
  match i with
  | .one => ⟨v, q.h2⟩
  | .two => ⟨q.h1, v⟩

/-- Every lane of U32 the same value (R104). -/
def Quad.fill {α : Type} (v : α) : Quad α := ⟨v, v, v, v⟩

/-- Every lane of U64 the same value (R134). -/
def Duo.fill {α : Type} (v : α) : Duo α := ⟨v, v⟩

end Sys2Proof
end

