-- ==== Sys2Proof/Config.lean ====
section
/-! DEFINITION. What an implementation of the block fixes (00_scope.md R7; 93_implementation_defined.md section 2 asks for the
constant tables as configuration), and the values the spec leaves without any value (10_state.md R24). -/

namespace Sys2Proof

/-- One row of the constant table of R100 or R130. -/
structure LaneConsts (w : Nat) where
  /-- the lane's multiplier `c_i` -/
  c : BitVec w
  /-- the rotation `rk_i` of the k word -/
  rk : Nat
  /-- the rotation `rh_i` of the lane -/
  rh : Nat
  /-- the finalizer constant `n_i` -/
  n : BitVec w
  deriving DecidableEq, Repr

/-- The two multipliers of an avalanche mix (43_finalization.md R165, R166). -/
structure FmixConsts (w : Nat) where
  m1 : BitVec w
  m2 : BitVec w
  deriving DecidableEq, Repr

/-- The parameters of a block. Nothing the block does changes them. -/
structure Config where
  /-- `COUNT_WIDTH`: the width of each unit's byte count (10_state.md R22) -/
  countWidth : Nat
  /-- `LENW`: the width of the length field of an ABSORB frame in bits (00_scope.md R7, 92_eei_decisions.md D28) -/
  lenWidth : Nat
  /-- the table of 41_mixer_4x32.md R100 -/
  mix32 : Quad (LaneConsts 32)
  /-- the table of 42_mixer_2x64.md R130 -/
  mix64 : Duo (LaneConsts 64)
  /-- the multipliers of 43_finalization.md R165 -/
  fmix32 : FmixConsts 32
  /-- the multipliers of 43_finalization.md R166 -/
  fmix64 : FmixConsts 64
  deriving DecidableEq, Repr

/-- What the source says of a lane's constants: both are odd (41_mixer_4x32.md R100, 42_mixer_2x64.md R130) and both rotations lie
strictly between 0 and the lane width (00_scope.md R10). -/
def LaneConsts.ok {w : Nat} (k : LaneConsts w) : Bool :=
  decide (k.c.toNat % 2 = 1) && decide (k.n.toNat % 2 = 1) && decide (0 < k.rk) && decide (k.rk < w) &&
    decide (0 < k.rh) && decide (k.rh < w)

/-- Both multipliers of an avalanche mix are odd (43_finalization.md R165, R166). -/
def FmixConsts.ok {w : Nat} (k : FmixConsts w) : Bool :=
  decide (k.m1.toNat % 2 = 1) && decide (k.m2.toNat % 2 = 1)

/-- A configuration the spec allows: `COUNT_WIDTH` is at least 1 (92_eei_decisions.md, open parameters), and the constants are as the
source describes them. DESIGN CHOICE (log entry 19): `LENW` is a whole number of bytes, and at least one. -/
def Config.ok (g : Config) : Bool :=
  decide (1 ≤ g.countWidth) && decide (8 ≤ g.lenWidth) && decide (g.lenWidth % 8 = 0) && g.mix32.h1.ok && g.mix32.h2.ok && g.mix32.h3.ok && g.mix32.h4.ok &&
    g.mix64.h1.ok && g.mix64.h2.ok && g.fmix32.ok && g.fmix64.ok

/-- DESIGN CHOICE (log entry 1). What lane i of U32 holds before any NEW32: the spec gives it no value (R24), so it has no body. -/
opaque Config.unwrittenLane32 : Nat → Word32

/-- DESIGN CHOICE (log entry 1). What lane i of U64 holds before any NEW64 (R24). -/
opaque Config.unwrittenLane64 : Nat → Word64

/-- DESIGN CHOICE (log entry 1). What a unit's byte count holds before any NEW of it (R24): 1 for U32, 2 for U64. -/
opaque Config.unwrittenCount : Nat → Nat

end Sys2Proof
end

