-- ==== Sys2Proof/Machine/Bytes.lean ====
section
/-! DEFINITION. Byte order and rotation (00_scope.md R10, R11), and the bytes of a length field (R7). -/

namespace Sys2Proof

/-- `le(b[0..m-1])`: the little-endian value of a byte sequence (R11). -/
def le : List Byte → Nat
  | [] => 0
  | b :: bs => b.toNat + 256 * le bs

/-- `le` of a byte sequence as a word of w bits (the spec uses it with 8 * m = w). -/
def leWord (w : Nat) (bs : List Byte) : BitVec w := BitVec.ofNat w (le bs)

/-- The m little-endian bytes of a number: byte j is bits 8j+7 down to 8j (R11). -/
def encLe : Nat → Nat → List Byte
  | 0, _ => []
  | m + 1, v => BitVec.ofNat 8 (v % 256) :: encLe m (v / 256)

/-- `enc_le_32` (R11). -/
def encLe32 (v : Word32) : List Byte := encLe 4 v.toNat

/-- `enc_le_64` (R11). -/
def encLe64 (v : Word64) : List Byte := encLe 8 v.toNat

/-- `rotl_W(x, r)` for 0 < r < W (R10; for other r see log entry 17). -/
def rotl {w : Nat} (r : Nat) (x : BitVec w) : BitVec w := (x <<< r) ||| (x >>> (w - r))

/-- How many bytes the length field of an ABSORB frame has: `LENW` / 8, which is 8 by default (00_scope.md R7, 30_encoding.md R73). -/
def Config.lenBytes (g : Config) : Nat := g.lenWidth / 8

end Sys2Proof
end

