-- ==== Sys2Proof/Machine/Constants.lean ====
section
/-! DEFINITION. The default parameters: `COUNT_WIDTH` = 64 and `LENW` = 64 (00_scope.md R7) and the constant tables of 41_mixer_4x32.md R100,
42_mixer_2x64.md R130 and 43_finalization.md R165, R166, which the spec marks as general knowledge (log entry 3). -/

namespace Sys2Proof.Machine

/-- The table of R100. -/
def defaultMix32 : Quad (LaneConsts 32) where
  h1 := { c := 0x239b961b#32, rk := 15, rh := 19, n := 0x561ccd1b#32 }
  h2 := { c := 0xab0e9789#32, rk := 16, rh := 17, n := 0x0bcaa747#32 }
  h3 := { c := 0x38b34ae5#32, rk := 17, rh := 15, n := 0x96cd1c35#32 }
  h4 := { c := 0xa1e38b93#32, rk := 18, rh := 13, n := 0x32ac3b17#32 }

/-- The table of R130. -/
def defaultMix64 : Duo (LaneConsts 64) where
  h1 := { c := 0x87c37b91114253d5#64, rk := 31, rh := 27, n := 0x0000000052dce729#64 }
  h2 := { c := 0x4cf5ad432745937f#64, rk := 33, rh := 31, n := 0x0000000038495ab5#64 }

/-- The multipliers of R165. -/
def defaultFmix32 : FmixConsts 32 where
  m1 := 0x85ebca6b#32
  m2 := 0xc2b2ae35#32

/-- The multipliers of R166. -/
def defaultFmix64 : FmixConsts 64 where
  m1 := 0xff51afd7ed558ccd#64
  m2 := 0xc4ceb9fe1a85ec53#64

/-- The default of every parameter. -/
def defaultConfig : Config where
  countWidth := 64
  lenWidth := 64
  mix32 := defaultMix32
  mix64 := defaultMix64
  fmix32 := defaultFmix32
  fmix64 := defaultFmix64

end Sys2Proof.Machine
end

