-- ==== Sys2Proof/Syntax.lean ====
section
/-! DEFINITION. The six commands of the block (30_encoding.md R76), with the operands the source's signatures give them. -/

namespace Sys2Proof

/-- The unit a command addresses: the field V of the opcode byte (30_encoding.md R71). -/
inductive UnitSel where
  | u32
  | u64
  deriving DecidableEq, Repr

/-- The operation of a command: the field OP of the opcode byte (30_encoding.md R71). -/
inductive Operation where
  | new
  | absorb
  | final
  deriving DecidableEq, Repr

/-- A command. An ABSORB carries its data field; its operand n is the length of that field (R73, log entry 10). -/
inductive Instr where
  /-- NEW32 seed (R104) -/
  | new32 (seed : Word32)
  /-- ABSORB32 n data (R105) -/
  | absorb32 (data : List Byte)
  /-- FINAL32 (R169) -/
  | final32
  /-- NEW64 seed (R134): the seed has 32 bits for both units -/
  | new64 (seed : Word32)
  /-- ABSORB64 n data (R135) -/
  | absorb64 (data : List Byte)
  /-- FINAL64 (R170) -/
  | final64
  deriving DecidableEq, Repr

/-- The unit a command addresses (R76). -/
def Instr.unit : Instr → UnitSel
  | .new32 _ => .u32
  | .absorb32 _ => .u32
  | .final32 => .u32
  | .new64 _ => .u64
  | .absorb64 _ => .u64
  | .final64 => .u64

/-- The operation of a command (R76). -/
def Instr.operation : Instr → Operation
  | .new32 _ => .new
  | .absorb32 _ => .absorb
  | .final32 => .final
  | .new64 _ => .new
  | .absorb64 _ => .absorb
  | .final64 => .final

/-- The bytes a command absorbs: its data field, or none. -/
def Instr.data : Instr → List Byte
  | .new32 _ => []
  | .absorb32 data => data
  | .final32 => []
  | .new64 _ => []
  | .absorb64 data => data
  | .final64 => []

end Sys2Proof
end

