-- ==== Sys2Proof/WellFormed.lean ====
section
/-! DEFINITION. Which commands a frame can carry: the length of an ABSORB's data field fits its length field, which has `LENW` bits, 64 by
default (00_scope.md R7, 30_encoding.md R73). -/

namespace Sys2Proof

/-- The data field's length is expressible in the length field (R73: 0 ≤ n ≤ 2^64 - 1 with the default `LENW`). -/
def lengthFits (g : Config) (data : List Byte) : Bool := decide (data.length < 2 ^ (8 * g.lenBytes))

/-- A command that some frame encodes. -/
def Instr.wellFormed (g : Config) : Instr → Bool
  | .new32 _ => true
  | .absorb32 data => lengthFits g data
  | .final32 => true
  | .new64 _ => true
  | .absorb64 data => lengthFits g data
  | .final64 => true

end Sys2Proof
end

