-- ==== Sys2Proof/Decode.lean ====
section
/-! DEFINITION. From the bytes of the command stream to a command and back (30_encoding.md R70 to R77). The length field of an ABSORB has `LENW`
bits, a parameter of the block (00_scope.md R7). -/

namespace Sys2Proof

/-- What the frame decoder finds at the head of the unread command stream. -/
inductive Decoded where
  /-- no byte stands there: the stream ends at a frame boundary -/
  | empty
  /-- a frame has begun and not all its bytes are present (60_exceptions.md R206) -/
  | incomplete
  /-- an illegal opcode byte: a 1-byte frame (R75, R76) -/
  | illegal (opcode : Byte)
  /-- a complete frame, and the bytes after it -/
  | frame (i : Instr) (rest : List Byte)
  deriving DecidableEq, Repr

/-- The fields of the opcode byte: O[7:5] and O[3:2] must be zero, V is O[4], OP is O[1:0] (R71). -/
def decodeOpcode (o : Byte) : Option (UnitSel × Operation) :=
  let unit : UnitSel := if o.extractLsb' 4 1 = 1#1 then .u64 else .u32
  if o.extractLsb' 5 3 ≠ 0#3 ∨ o.extractLsb' 2 2 ≠ 0#2 then none
  else if o.extractLsb' 0 2 = 1#2 then some (unit, .new)
  else if o.extractLsb' 0 2 = 2#2 then some (unit, .absorb)
  else if o.extractLsb' 0 2 = 3#2 then some (unit, .final)
  else none

/-- The NEW of a unit (R72). -/
def newOf (u : UnitSel) (seed : Word32) : Instr :=
  match u with
  | .u32 => .new32 seed
  | .u64 => .new64 seed

/-- The ABSORB of a unit (R73). -/
def absorbOf (u : UnitSel) (data : List Byte) : Instr :=
  match u with
  | .u32 => .absorb32 data
  | .u64 => .absorb64 data

/-- The FINAL of a unit (R74). -/
def finalOf (u : UnitSel) : Instr :=
  match u with
  | .u32 => .final32
  | .u64 => .final64

/-- Format N after its opcode: four seed bytes, little-endian (R72). -/
def decodeNew (u : UnitSel) (rest : List Byte) : Decoded :=
  if rest.length < 4 then .incomplete
  else .frame (newOf u (leWord 32 (rest.take 4))) (rest.drop 4)

/-- The data field of format A once n is known (R73). -/
def decodeData (u : UnitSel) (n : Nat) (rest : List Byte) : Decoded :=
  if rest.length < n then .incomplete
  else .frame (absorbOf u (rest.take n)) (rest.drop n)

/-- Format A after its opcode: the length bytes, eight by default, little-endian, and the data field (R73). -/
def decodeAbsorb (g : Config) (u : UnitSel) (rest : List Byte) : Decoded :=
  if rest.length < g.lenBytes then .incomplete
  else decodeData u (le (rest.take g.lenBytes)) (rest.drop g.lenBytes)

/-- The frame at the head of a byte sequence (R70, R75). Total: every sequence is a frame or is rejected by name. -/
def decode (g : Config) : List Byte → Decoded
  | [] => .empty
  | o :: rest =>
    match decodeOpcode o with
    | none => .illegal o
    | some (u, .new) => decodeNew u rest
    | some (u, .absorb) => decodeAbsorb g u rest
    | some (u, .final) => .frame (finalOf u) rest

/-- The length field and data field of an ABSORB frame (R73). -/
def encodeData (g : Config) (data : List Byte) : List Byte := encLe g.lenBytes data.length ++ data

/-- The frame of a command, from the opcode map of R76 and the formats of R72 to R74. -/
def encode (g : Config) : Instr → List Byte
  | .new32 seed => 0x01#8 :: encLe32 seed
  | .absorb32 data => 0x02#8 :: encodeData g data
  | .final32 => [0x03#8]
  | .new64 seed => 0x11#8 :: encLe32 seed
  | .absorb64 data => 0x12#8 :: encodeData g data
  | .final64 => [0x13#8]

/-- The length of a command's frame in bytes: 5, 9 + n or 1 by default (R75). -/
def frameLength (g : Config) (i : Instr) : Nat :=
  match i.operation with
  | .new => 5
  | .absorb => 1 + g.lenBytes + i.data.length
  | .final => 1

/-- How many bytes the frame that begins with these has, absent bytes read as zero (R75). -/
def frameNeed (g : Config) (bs : List Byte) : Nat :=
  match bs with
  | [] => 0
  | o :: rest =>
    match decodeOpcode o with
    | none => 1
    | some (_, .new) => 5
    | some (_, .absorb) => 1 + g.lenBytes + le (rest.take g.lenBytes)
    | some (_, .final) => 1

/-- The frame whose first bits are w, in the numbering of spec/opcode_table.json (a later byte's bits count on from the first
byte's), with zeros for every byte the table's bits do not reach. -/
def tableFrame (g : Config) (nbits w : Nat) : List Byte :=
  let bs := encLe ((nbits + 7) / 8) w
  bs ++ List.replicate (frameNeed g bs - bs.length) 0#8

/-- What the decoder of a block with the default parameters reads from a row of spec/opcode_table.json. -/
def decodeTableWord (nbits w : Nat) : Option Instr :=
  match decode Machine.defaultConfig (tableFrame Machine.defaultConfig nbits w) with
  | .frame i _ => some i
  | .empty => none
  | .incomplete => none
  | .illegal _ => none

end Sys2Proof
end

