-- ==== Sys2Proof/Machine/State.lean ====
section
/-! DEFINITION. The architectural state of the block (10_state.md), the reasons a step can stop, and the state after reset (R30). -/

namespace Sys2Proof.Machine

/-- The lifecycle field of a unit (10_state.md R23). Its fourth code, 3, is never held, so it has no constructor (log entry 15). -/
inductive Life where
  | uninit
  | active
  | finalized
  deriving DecidableEq, Repr

/-- The fault causes of 60_exceptions.md R201; `none` is code 0. Codes 6 to 15 are never raised (log entry 15). -/
inductive Cause where
  | none
  | illegalCommand
  | notInitialised
  | absorbAfterFinal
  | doubleFinal
  | countOverflow
  deriving DecidableEq, Repr

/-- A hashing unit: its lanes (R20, R21), its byte count (R22, a number bounded by `COUNT_WIDTH`: log entry 14) and its lifecycle
field (R23). -/
structure HashUnit (L : Type) where
  lanes : L
  count : Nat
  life : Life
  deriving DecidableEq, Repr

/-- The sticky fields of STATUS (10_state.md R25). -/
structure FaultReg where
  halted : Bool
  cause : Cause
  funit : UnitSel
  deriving DecidableEq, Repr

/-- The block. STATUS is not stored whole: its LIFE fields mirror the units' `life` (R25), see `State.status`. -/
structure State where
  /-- the parameters the block is built with: the model's own field, written by nothing (log entry 2) -/
  config : Config
  /-- unit U32 (R20, R22, R23) -/
  u32 : HashUnit (Quad Word32)
  /-- unit U64 (R21, R22, R23) -/
  u64 : HashUnit (Duo Word64)
  /-- STATUS.HALTED, STATUS.CAUSE and STATUS.FUNIT (R25) -/
  faultReg : FaultReg
  /-- CMDIDX, an unbounded natural number (R26) -/
  cmdIdx : Nat
  /-- the bytes of the command stream that the host has sent and the block has not consumed (20_memory.md R50, R51; log entry 4) -/
  stream : List Byte
  /-- the command stream position: the stream offset of the next unread byte (R30, R50) -/
  streamPos : Nat
  /-- the response stream since reset, oldest byte first (20_memory.md R53) -/
  response : List Byte
  deriving DecidableEq, Repr

/-- Why the block takes no step. None of these is one of the block's own faults, which are next states with STATUS.HALTED set
(60_exceptions.md R203). -/
inductive Fault where
  /-- STATUS.HALTED = 1: no frame is decoded or executed (60_exceptions.md R204). Raised by `step` and by every meaning. Safe: nothing
  is claimed of a next state. -/
  | halted
  /-- The command stream ends inside a frame: the block waits and is stuck (60_exceptions.md R206). Raised by `step`. Safe. -/
  | incompleteFrame
  /-- No unread byte at a frame boundary: the block is idle, and a run that stops here ended normally (70_reset_and_hazards.md R233).
  Raised by `step`. Safe. -/
  | endOfStream
  deriving DecidableEq, Repr

/-- Why a command has no meaning in the model. -/
inductive Refusal where
  /-- The command has no meaning yet. Raised by no arm: every command is modelled. Safe. -/
  | notModelled (mnemonic : String)
  deriving DecidableEq, Repr

/-- A block with these parameters right after reset (10_state.md R30). The lanes and counts hold no value: they are opaque constants,
and no command reads them while `life` is UNINIT (R24, log entry 1). -/
def State.resetWith (g : Config) : State where
  config := g
  u32 := {
    lanes := ⟨Config.unwrittenLane32 1, Config.unwrittenLane32 2, Config.unwrittenLane32 3, Config.unwrittenLane32 4⟩
    count := Config.unwrittenCount 1
    life := .uninit }
  u64 := {
    lanes := ⟨Config.unwrittenLane64 1, Config.unwrittenLane64 2⟩
    count := Config.unwrittenCount 2
    life := .uninit }
  faultReg := { halted := false, cause := .none, funit := .u32 }
  cmdIdx := 0
  stream := []
  streamPos := 0
  response := []

/-- The machine right after reset, with the default parameters. -/
def State.reset : State := State.resetWith defaultConfig

end Sys2Proof.Machine
end

