-- ==== Sys2Proof/Machine/Ops.lean ====
section
/-! DEFINITION. The named operations the commands share: writing a unit, completing a command, emitting a response, entering a fault
(60_exceptions.md R203), the acceptance and admission checks (R202, R204), fetching a frame and consuming it; and the mixing
functions both units share. -/

namespace Sys2Proof.Machine

/-- What a command or a step answers. -/
abbrev Result := Host.Outcome State Fault Refusal

/-- U32 replaced whole. -/
def State.setU32 (s : State) (v : HashUnit (Quad Word32)) : State := { s with u32 := v }

/-- U64 replaced whole. -/
def State.setU64 (s : State) (v : HashUnit (Duo Word64)) : State := { s with u64 := v }

/-- `CMDIDX <- CMDIDX + 1`: the command completes (10_state.md R26). -/
def State.complete (s : State) : State := { s with cmdIdx := s.cmdIdx + 1 }

/-- `RespEmit`: bytes appended to the response stream (20_memory.md R53). -/
def State.emit (s : State) (bytes : List Byte) : State := { s with response := s.response ++ bytes }

/-- Fault entry (60_exceptions.md R203): only HALTED, CAUSE and FUNIT are written; every other register keeps its value from before the
frame. There is no handler and no return (R205). -/
def State.raiseFault (s : State) (c : Cause) (u : UnitSel) : State :=
  { s with faultReg := { halted := true, cause := c, funit := u } }

/-- The first m unread bytes of the command stream consumed (20_memory.md R51). -/
def State.consume (s : State) (m : Nat) : State :=
  { s with stream := s.stream.drop m, streamPos := s.streamPos + m }

/-- While STATUS.HALTED = 1 the block accepts no command (60_exceptions.md R204); otherwise the command acts. -/
def accept (s : State) (t : State) : Result :=
  if s.faultReg.halted = true then .fault .halted else .next t

/-- A command either faults, with none of its writes, or completes, with all of them (20_memory.md R58). -/
def guarded (check : Option Cause) (u : UnitSel) (s done : State) : State :=
  match check with
  | some c => s.raiseFault c u
  | none => done

/-- An ABSORB of n bytes would carry the count past 2^COUNT_WIDTH - 1 (10_state.md R22). -/
def countOverflows (g : Config) (count n : Nat) : Bool := decide (2 ^ g.countWidth - 1 < count + n)

/-- The admission checks of ABSORB, in the order of 60_exceptions.md R202. -/
def absorbCheck {L : Type} (g : Config) (v : HashUnit L) (n : Nat) : Option Cause :=
  match v.life with
  | .uninit => some .notInitialised
  | .finalized => some .absorbAfterFinal
  | .active => if countOverflows g v.count n then some .countOverflow else none

/-- The admission checks of FINAL (R202). -/
def finalCheck {L : Type} (v : HashUnit L) : Option Cause :=
  match v.life with
  | .uninit => some .notInitialised
  | .finalized => some .doubleFinal
  | .active => none

/-- The frame at the head of the unread command stream (20_memory.md R51). -/
def State.fetch (s : State) : Decoded := decode s.config s.stream

/-- An illegal opcode byte: ILLEGAL_COMMAND, which names no unit (30_encoding.md R76, 60_exceptions.md R201, R203). -/
def State.illegalCommand (s : State) : State := s.raiseFault .illegalCommand .u32

/-- How much of a frame of this length is consumed once its command has acted: the whole frame of a completed command, the opcode byte
alone of a faulting one (60_exceptions.md R204, log entry 5). -/
def consumedBytes (length : Nat) (t : State) : Nat := if t.faultReg.halted = true then 1 else length

/-- The command's frame consumed after it has acted (20_memory.md R51). -/
def retire (length : Nat) (r : Result) : Result :=
  match r with
  | .next t => .next (t.consume (consumedBytes length t))
  | .fault e => .fault e
  | .refused e => .refused e

/-- The primary mix of a k word (41_mixer_4x32.md R101, 42_mixer_2x64.md R131): multiply by this lane's constant, rotate, multiply by
the next lane's constant. -/
def kmix {w : Nat} (here next : LaneConsts w) (k : BitVec w) : BitVec w := rotl here.rk (k * here.c) * next.c

/-- The secondary update of a lane (R102, R132): rotate, add the successor lane, multiply by 5, add the lane's constant. -/
def secondary {w : Nat} (here : LaneConsts w) (x successor : BitVec w) : BitVec w :=
  (rotl here.rh x + successor) * 5#w + here.n

/-- The structure the two avalanche mixes share (43_finalization.md R165, R166; 90_conflicts.md C10). -/
def fmix {w : Nat} (a b c : Nat) (m : FmixConsts w) (x0 : BitVec w) : BitVec w :=
  let x1 := x0 ^^^ (x0 >>> a)
  let x2 := x1 * m.m1
  let x3 := x2 ^^^ (x2 >>> b)
  let x4 := x3 * m.m2
  x4 ^^^ (x4 >>> c)

end Sys2Proof.Machine
end

