-- ==== Sys2Proof/Machine/Finalization.lean ====
section
/-! DEFINITION. The avalanche finalization pipeline, FINAL32 and FINAL64 (43_finalization.md). -/

namespace Sys2Proof.Machine

/-- XORLEN32: the low 32 bits of the count into every lane (R161). -/
def xorLen32 (count : Nat) (h : Quad Word32) : Quad Word32 :=
  let l := BitVec.ofNat 32 count
  ⟨h.h1 ^^^ l, h.h2 ^^^ l, h.h3 ^^^ l, h.h4 ^^^ l⟩

/-- XORLEN64 (R162). -/
def xorLen64 (count : Nat) (h : Duo Word64) : Duo Word64 :=
  let l := BitVec.ofNat 64 count
  ⟨h.h1 ^^^ l, h.h2 ^^^ l⟩

/-- CROSSADD32: lane 1 first, then every other lane adds the new lane 1 (R163, 90_conflicts.md C9). -/
def crossAdd32 (h : Quad Word32) : Quad Word32 :=
  let n1 := h.h1 + h.h2 + h.h3 + h.h4
  ⟨n1, h.h2 + n1, h.h3 + n1, h.h4 + n1⟩

/-- CROSSADD64 (R164). -/
def crossAdd64 (h : Duo Word64) : Duo Word64 :=
  let n1 := h.h1 + h.h2
  ⟨n1, h.h2 + n1⟩

/-- `fmix32` (R165). -/
def fmix32 (g : Config) (x : Word32) : Word32 := fmix 16 13 16 g.fmix32 x

/-- `fmix64` (R166). -/
def fmix64 (g : Config) (x : Word64) : Word64 := fmix 33 33 33 g.fmix64 x

/-- FMIX32: each lane on its own (R165). -/
def fmixLanes32 (g : Config) (h : Quad Word32) : Quad Word32 :=
  ⟨fmix32 g h.h1, fmix32 g h.h2, fmix32 g h.h3, fmix32 g h.h4⟩

/-- FMIX64 (R166). -/
def fmixLanes64 (g : Config) (h : Duo Word64) : Duo Word64 := ⟨fmix64 g h.h1, fmix64 g h.h2⟩

/-- The pipeline up to EMIT32 (R160). -/
def finalLanes32 (g : Config) (count : Nat) (h : Quad Word32) : Quad Word32 :=
  crossAdd32 (fmixLanes32 g (crossAdd32 (xorLen32 count h)))

/-- The pipeline up to EMIT64 (R160). -/
def finalLanes64 (g : Config) (count : Nat) (h : Duo Word64) : Duo Word64 :=
  crossAdd64 (fmixLanes64 g (crossAdd64 (xorLen64 count h)))

/-- The bytes EMIT32 appends: the lanes little-endian, lane 1 first (R167, 30_encoding.md R78). -/
def digest32 (h : Quad Word32) : List Byte := encLe32 h.h1 ++ encLe32 h.h2 ++ encLe32 h.h3 ++ encLe32 h.h4

/-- The bytes EMIT64 appends (R168). -/
def digest64 (h : Duo Word64) : List Byte := encLe64 h.h1 ++ encLe64 h.h2

/-- U32 as FINAL32 leaves it: the lanes written back, the count as it was (R169, R171). -/
def finalUnit32 (g : Config) (v : HashUnit (Quad Word32)) : HashUnit (Quad Word32) where
  lanes := finalLanes32 g v.count v.lanes
  count := v.count
  life := .finalized

/-- U64 as FINAL64 leaves it (R170, R171). -/
def finalUnit64 (g : Config) (v : HashUnit (Duo Word64)) : HashUnit (Duo Word64) where
  lanes := finalLanes64 g v.count v.lanes
  count := v.count
  life := .finalized

/-- FINAL32 (R169). -/
def execFinal32 (s : State) : Result :=
  accept s <| guarded (finalCheck s.u32) .u32 s
    ((s.setU32 (finalUnit32 s.config s.u32)).emit (digest32 (finalUnit32 s.config s.u32).lanes)).complete

/-- FINAL64 (R170). -/
def execFinal64 (s : State) : Result :=
  accept s <| guarded (finalCheck s.u64) .u64 s
    ((s.setU64 (finalUnit64 s.config s.u64)).emit (digest64 (finalUnit64 s.config s.u64).lanes)).complete

end Sys2Proof.Machine
end

