-- ==== Sys2Proof/Machine/Operands.lean ====
section
/-! DEFINITION. Reading the operands of a command: the seed (30_encoding.md R72) and the data field of an ABSORB
(00_scope.md R13, 20_memory.md R52, R56). -/

namespace Sys2Proof.Machine

/-- `BLOCK`: 16 bytes for both units (00_scope.md R7). -/
def blockBytes : Nat := 16

/-- `zext_64(seed)` (42_mixer_2x64.md R134). -/
def seed64 (seed : Word32) : Word64 := seed.setWidth 64

/-- `DataByte(i)`. The rules use it only with i < n (R52); past the field it reads 0 (log entry 18). -/
def dataByte (data : List Byte) (i : Nat) : Byte := data.getD i 0#8

/-- `DataRead(i, m)` as a word of w bits: little-endian, with i + m ≤ n (R52). -/
def dataRead (w : Nat) (data : List Byte) (i m : Nat) : BitVec w := leWord w ((data.drop i).take m)

/-- The four k words of block j (41_mixer_4x32.md R102). -/
def blockWords32 (data : List Byte) (j : Nat) : Quad Word32 where
  h1 := dataRead 32 data (blockBytes * j) 4
  h2 := dataRead 32 data (blockBytes * j + 4) 4
  h3 := dataRead 32 data (blockBytes * j + 8) 4
  h4 := dataRead 32 data (blockBytes * j + 12) 4

/-- The two k words of block j (42_mixer_2x64.md R132). -/
def blockWords64 (data : List Byte) (j : Nat) : Duo Word64 where
  h1 := dataRead 64 data (blockBytes * j) 8
  h2 := dataRead 64 data (blockBytes * j + 8) 8

/-- One tail byte XORed into its k word at its little-endian position (41_mixer_4x32.md R103). -/
def tailByte32 (data : List Byte) (base : Nat) (k : Quad Word32) (p : Nat) : Quad Word32 :=
  let q := Lane4.after (p / 4)
  k.set q (k.get q ^^^ ((dataByte data (base + p)).setWidth 32 <<< (8 * (p % 4))))

/-- The k words of the t tail bytes from base on; they start at 0 (R103). -/
def tailWords32 (data : List Byte) (base t : Nat) : Quad Word32 :=
  (List.range t).foldl (tailByte32 data base) (Quad.fill 0#32)

/-- One tail byte XORed into its k word (42_mixer_2x64.md R133). -/
def tailByte64 (data : List Byte) (base : Nat) (k : Duo Word64) (p : Nat) : Duo Word64 :=
  let q := Lane2.after (p / 8)
  k.set q (k.get q ^^^ ((dataByte data (base + p)).setWidth 64 <<< (8 * (p % 8))))

/-- The k words of the t tail bytes from base on; they start at 0 (R133). -/
def tailWords64 (data : List Byte) (base t : Nat) : Duo Word64 :=
  (List.range t).foldl (tailByte64 data base) (Duo.fill 0#64)

end Sys2Proof.Machine
end

