-- ==== Sys2Proof/Machine/Mixer32.lean ====
section
/-! DEFINITION. Unit U32: the mixing steps, NEW32 and ABSORB32 (41_mixer_4x32.md). -/

namespace Sys2Proof.Machine

/-- `kmix32(i, k)` (R101). -/
def kmix32 (g : Config) (i : Lane4) (k : Word32) : Word32 := kmix (g.mix32.get i) (g.mix32.get i.succ) k

/-- `primary32(i, k)` (R101). -/
def primary32 (g : Config) (i : Lane4) (k : Word32) (h : Quad Word32) : Quad Word32 :=
  h.set i (h.get i ^^^ kmix32 g i k)

/-- Lane i of a full block: the primary mix, then the secondary update, which reads the successor lane as it stands now (R102). -/
def blockLane32 (g : Config) (k h : Quad Word32) (i : Lane4) : Quad Word32 :=
  let h' := primary32 g i (k.get i) h
  h'.set i (secondary (g.mix32.get i) (h'.get i) (h'.get i.succ))

/-- A full block's words mixed into the lanes, strictly in the order 1, 2, 3, 4 (R102, 90_conflicts.md C1). -/
def mixBlock32 (g : Config) (k h : Quad Word32) : Quad Word32 := Lane4.all.foldl (blockLane32 g k) h

/-- `BLOCK32(j)` (R102). -/
def block32 (g : Config) (data : List Byte) (h : Quad Word32) (j : Nat) : Quad Word32 :=
  mixBlock32 g (blockWords32 data j) h

/-- One lane of the tail step: the primary mix alone, if the lane received at least one of the t bytes (R103). -/
def tailLane32 (g : Config) (t : Nat) (k h : Quad Word32) (i : Lane4) : Quad Word32 :=
  if 4 * i.before < t then primary32 g i (k.get i) h else h

/-- `TAIL32(base, t)` (R103). -/
def tail32 (g : Config) (data : List Byte) (base t : Nat) (h : Quad Word32) : Quad Word32 :=
  Lane4.all.foldl (tailLane32 g t (tailWords32 data base t)) h

/-- The lanes after a chunk: its full blocks in order, then its tail (R105). -/
def absorbLanes32 (g : Config) (data : List Byte) (h : Quad Word32) : Quad Word32 :=
  let full := data.length / blockBytes
  tail32 g data (blockBytes * full) (data.length % blockBytes) ((List.range full).foldl (block32 g data) h)

/-- U32 as NEW32 leaves it (R104). -/
def newUnit32 (seed : Word32) : HashUnit (Quad Word32) where
  lanes := Quad.fill seed
  count := 0
  life := .active

/-- U32 as ABSORB32 leaves it (R105). -/
def absorbUnit32 (g : Config) (data : List Byte) (v : HashUnit (Quad Word32)) : HashUnit (Quad Word32) where
  lanes := absorbLanes32 g data v.lanes
  count := v.count + data.length
  life := v.life

/-- NEW32 (R104): legal in every life state. -/
def execNew32 (seed : Word32) (s : State) : Result :=
  accept s (s.setU32 (newUnit32 seed)).complete

/-- ABSORB32 (R105): the checks in order, before any write; then the chunk. -/
def execAbsorb32 (data : List Byte) (s : State) : Result :=
  accept s <| guarded (absorbCheck s.config s.u32 data.length) .u32 s
    (s.setU32 (absorbUnit32 s.config data s.u32)).complete

end Sys2Proof.Machine
end

