-- ==== Sys2Proof/Machine/Mixer64.lean ====
section
/-! DEFINITION. Unit U64: the mixing steps, NEW64 and ABSORB64 (42_mixer_2x64.md). -/

namespace Sys2Proof.Machine

/-- `kmix64(i, k)` (R131). -/
def kmix64 (g : Config) (i : Lane2) (k : Word64) : Word64 := kmix (g.mix64.get i) (g.mix64.get i.succ) k

/-- `primary64(i, k)` (R131). -/
def primary64 (g : Config) (i : Lane2) (k : Word64) (h : Duo Word64) : Duo Word64 :=
  h.set i (h.get i ^^^ kmix64 g i k)

/-- Lane i of a full block (R132): lane 1 adds lane 2 from before this block, lane 2 adds the new lane 1. -/
def blockLane64 (g : Config) (k h : Duo Word64) (i : Lane2) : Duo Word64 :=
  let h' := primary64 g i (k.get i) h
  h'.set i (secondary (g.mix64.get i) (h'.get i) (h'.get i.succ))

/-- A full block's words mixed into the lanes, strictly in the order 1, 2 (R132). -/
def mixBlock64 (g : Config) (k h : Duo Word64) : Duo Word64 := Lane2.all.foldl (blockLane64 g k) h

/-- `BLOCK64(j)` (R132). -/
def block64 (g : Config) (data : List Byte) (h : Duo Word64) (j : Nat) : Duo Word64 :=
  mixBlock64 g (blockWords64 data j) h

/-- One lane of the tail step: the primary mix alone, if the lane received at least one of the t bytes (R133). -/
def tailLane64 (g : Config) (t : Nat) (k h : Duo Word64) (i : Lane2) : Duo Word64 :=
  if 8 * i.before < t then primary64 g i (k.get i) h else h

/-- `TAIL64(base, t)` (R133). -/
def tail64 (g : Config) (data : List Byte) (base t : Nat) (h : Duo Word64) : Duo Word64 :=
  Lane2.all.foldl (tailLane64 g t (tailWords64 data base t)) h

/-- The lanes after a chunk: its full blocks in order, then its tail (R135). -/
def absorbLanes64 (g : Config) (data : List Byte) (h : Duo Word64) : Duo Word64 :=
  let full := data.length / blockBytes
  tail64 g data (blockBytes * full) (data.length % blockBytes) ((List.range full).foldl (block64 g data) h)

/-- U64 as NEW64 leaves it (R134). -/
def newUnit64 (seed : Word32) : HashUnit (Duo Word64) where
  lanes := Duo.fill (seed64 seed)
  count := 0
  life := .active

/-- U64 as ABSORB64 leaves it (R135). -/
def absorbUnit64 (g : Config) (data : List Byte) (v : HashUnit (Duo Word64)) : HashUnit (Duo Word64) where
  lanes := absorbLanes64 g data v.lanes
  count := v.count + data.length
  life := v.life

/-- NEW64 (R134): legal in every life state. -/
def execNew64 (seed : Word32) (s : State) : Result :=
  accept s (s.setU64 (newUnit64 seed)).complete

/-- ABSORB64 (R135): the checks in order, before any write; then the chunk. -/
def execAbsorb64 (data : List Byte) (s : State) : Result :=
  accept s <| guarded (absorbCheck s.config s.u64 data.length) .u64 s
    (s.setU64 (absorbUnit64 s.config data s.u64)).complete

end Sys2Proof.Machine
end

