-- ==== Sys2Proof/Machine/Dispatch.lean ====
section
/-! DEFINITION. One arm per command (30_encoding.md R76). -/

namespace Sys2Proof.Machine

def exec (i : Instr) (s : State) : Host.Outcome State Fault Refusal :=
  match i with
  | .new32 seed => Sys2Proof.Machine.execNew32 seed s
  | .absorb32 data => Sys2Proof.Machine.execAbsorb32 data s
  | .final32 => Sys2Proof.Machine.execFinal32 s
  | .new64 seed => Sys2Proof.Machine.execNew64 seed s
  | .absorb64 data => Sys2Proof.Machine.execAbsorb64 data s
  | .final64 => Sys2Proof.Machine.execFinal64 s

end Sys2Proof.Machine
end

