-- ==== Sys2Proof/Machine/Step.lean ====
section
/-! DEFINITION. One step of the block: the frame at the head of the unread command stream is executed and consumed
(20_memory.md R51, R58). -/

namespace Sys2Proof.Machine

/-- One step. A halted block takes none (60_exceptions.md R204); without a complete frame the block waits (R206) or is idle
(70_reset_and_hazards.md R233); an illegal opcode byte faults (30_encoding.md R76); otherwise the decoded command is executed. -/
def step (s : State) : Host.Outcome State Fault Refusal :=
  if s.faultReg.halted = true then .fault .halted
  else
    match s.fetch with
    | .empty => .fault .endOfStream
    | .incomplete => .fault .incompleteFrame
    | .illegal _ => retire 1 (.next s.illegalCommand)
    | .frame i _ => retire (frameLength s.config i) (exec i s)

/-- The state with this instruction at the head of the unread command stream: it stands for the host's sending the frame (log entry 9). -/
def State.withFetchWord (s : State) (nbits w : Nat) : State :=
  { s with stream := tableFrame s.config nbits w ++ s.stream }

end Sys2Proof.Machine
end

