-- ==== Sys2Proof/Machine/Assembler.lean ====
section
/-! DEFINITION. The assembler: one command a line (30_encoding.md R79) and the pseudo-instructions (R80). What R79 leaves open in the
text's form is in log entry 11, line by line. -/

namespace Sys2Proof.Machine

/-- Why a line does not assemble. -/
inductive AsmError where
  | unknownMnemonic
  | badNumber
  /-- a seed outside 0 .. 2^32 - 1 (R79) -/
  | seedRange
  | badBytes
  | missingComma
  | trailingText
  /-- a step of 0 (R80) -/
  | stepZero
  /-- a data field whose length its length field cannot hold (DESIGN CHOICE, log entry 11; R79 does not say) -/
  | dataLength
  deriving DecidableEq, Repr

/-- A line: a command, or a pseudo-instruction of R80. -/
inductive AsmCommand where
  | plain (i : Instr)
  | hash (u : UnitSel) (seed : Word32) (bytes : List Byte)
  | absorbs (u : UnitSel) (step : Nat) (bytes : List Byte)
  deriving DecidableEq, Repr

/-- The chunks of `absorbs32` and `absorbs64`: for q = 0 .. ceil(L/step) - 1 the bytes q*step .. min((q+1)*step, L) - 1 (R80). -/
def chunks (step : Nat) (bytes : List Byte) : List (List Byte) :=
  (List.range ((bytes.length + step - 1) / step)).map fun q => (bytes.drop (q * step)).take step

/-- The commands a line stands for, in order (R80). -/
def AsmCommand.expand : AsmCommand → Except AsmError (List Instr)
  | .plain i => .ok [i]
  | .hash u seed bytes => .ok [newOf u seed, absorbOf u bytes, finalOf u]
  | .absorbs u step bytes => if step = 0 then .error .stepZero else .ok ((chunks step bytes).map (absorbOf u))

/-- The bytes of a sequence of frames: no padding, no separators (R70). -/
def encodeAll (g : Config) (is : List Instr) : List Byte := is.flatMap (encode g)

/-- The operand shapes of R79 and R80. -/
inductive AsmForm where
  | seedOnly
  | bytesOnly
  | nothing
  | seedBytes
  | stepBytes
  deriving DecidableEq, Repr

/-- The mnemonics of R79 and R80 in lower case. -/
def asmMnemonics : List (List Char × AsmForm × UnitSel) :=
  [("new32".toList, .seedOnly, .u32), ("absorb32".toList, .bytesOnly, .u32), ("final32".toList, .nothing, .u32),
   ("new64".toList, .seedOnly, .u64), ("absorb64".toList, .bytesOnly, .u64), ("final64".toList, .nothing, .u64),
   ("hash32".toList, .seedBytes, .u32), ("hash64".toList, .seedBytes, .u64),
   ("absorbs32".toList, .stepBytes, .u32), ("absorbs64".toList, .stepBytes, .u64)]

/-- A mnemonic, written in lower case or in upper case (R79). -/
def lookupMnemonic (word : List Char) : Option (AsmForm × UnitSel) :=
  (asmMnemonics.find? fun m => decide (word = m.1) || decide (word = m.1.map Char.toUpper)).map Prod.snd

/-- White space inside a line. -/
def isBlank (c : Char) : Bool := c == ' ' || c == '\t' || c == '\r'

/-- Leading white space dropped. -/
def skipBlanks (cs : List Char) : List Char := cs.dropWhile isBlank

/-- The value of a hexadecimal digit. -/
def hexValue (c : Char) : Option Nat :=
  if '0' ≤ c ∧ c ≤ '9' then some (c.toNat - '0'.toNat)
  else if 'a' ≤ c ∧ c ≤ 'f' then some (c.toNat - 'a'.toNat + 10)
  else if 'A' ≤ c ∧ c ≤ 'F' then some (c.toNat - 'A'.toNat + 10)
  else none

/-- The value of a digit in this base. -/
def digitValue (base : Nat) (c : Char) : Option Nat := (hexValue c).filter (· < base)

/-- The number that digits in this base spell, after those already read. -/
def digitsFrom (base : Nat) : Nat → List Char → Option Nat
  | acc, [] => some acc
  | acc, c :: cs =>
    match digitValue base c with
    | none => none
    | some v => digitsFrom base (base * acc + v) cs

/-- A number in decimal or as `0x` hex (R79); at least one digit. -/
def numberOf (word : List Char) : Option Nat :=
  match word with
  | [] => none
  | '0' :: 'x' :: [] => none
  | '0' :: 'x' :: ds => digitsFrom 16 0 ds
  | ds => digitsFrom 10 0 ds

/-- Two hex digits a byte, in data order (R79). -/
def hexBytes : List Char → Option (List Byte)
  | [] => some []
  | [_] => none
  | a :: b :: cs =>
    match hexValue a, hexValue b, hexBytes cs with
    | some x, some y, some bs => some (BitVec.ofNat 8 (16 * x + y) :: bs)
    | _, _, _ => none

/-- The ASCII codes of characters, in order (R79). -/
def textBytes : List Char → Option (List Byte)
  | [] => some []
  | c :: cs =>
    if c.toNat < 128 then (textBytes cs).map (BitVec.ofNat 8 c.toNat :: ·) else none

/-- What stands before the closing quote, and what stands after it. -/
def untilQuote : List Char → Option (List Char × List Char)
  | [] => none
  | c :: cs =>
    if c = '"' then some ([], cs) else (untilQuote cs).map fun r => (c :: r.1, r.2)

/-- A `<bytes>` operand and the rest of the line (R79). -/
def bytesOperand (cs : List Char) : Except AsmError (List Byte × List Char) :=
  let read (body : List Char) (conv : List Char → Option (List Byte)) : Except AsmError (List Byte × List Char) :=
    match untilQuote body with
    | none => .error .badBytes
    | some (inside, rest) =>
      match conv inside with
      | none => .error .badBytes
      | some bytes => .ok (bytes, rest)
  match skipBlanks cs with
  | 'x' :: '"' :: body => read body hexBytes
  | '"' :: body => read body textBytes
  | _ => .error .badBytes

/-- A number operand and the rest of the line (R79). -/
def numberOperand (cs : List Char) : Except AsmError (Nat × List Char) :=
  match numberOf ((skipBlanks cs).takeWhile Char.isAlphanum) with
  | none => .error .badNumber
  | some v => .ok (v, (skipBlanks cs).dropWhile Char.isAlphanum)

/-- A seed operand: a number in 0 .. 2^32 - 1 (R79). -/
def seedOperand (cs : List Char) : Except AsmError (Word32 × List Char) := do
  let (v, rest) ← numberOperand cs
  if v < 2 ^ 32 then .ok (BitVec.ofNat 32 v, rest) else .error .seedRange

/-- The comma between two operands (R80). -/
def comma (cs : List Char) : Except AsmError (List Char) :=
  match skipBlanks cs with
  | ',' :: rest => .ok rest
  | _ => .error .missingComma

/-- A line ends in white space and at most a comment (R79). -/
def lineDone (cs : List Char) : Except AsmError Unit :=
  match skipBlanks cs with
  | [] => .ok ()
  | ';' :: _ => .ok ()
  | _ => .error .trailingText

/-- The operands of a mnemonic and the end of its line. DESIGN CHOICE (log entry 11): `<step>` is written as R79 says of `<seed>`, in decimal
or as `0x` hex, and it has no upper bound; R80 gives it no number form. -/
def operands (f : AsmForm) (u : UnitSel) (cs : List Char) : Except AsmError AsmCommand :=
  match f with
  | .seedOnly => do
    let (seed, rest) ← seedOperand cs
    lineDone rest
    .ok (.plain (newOf u seed))
  | .bytesOnly => do
    let (bytes, rest) ← bytesOperand cs
    lineDone rest
    .ok (.plain (absorbOf u bytes))
  | .nothing => do
    lineDone cs
    .ok (.plain (finalOf u))
  | .seedBytes => do
    let (seed, rest) ← seedOperand cs
    let (bytes, rest) ← bytesOperand (← comma rest)
    lineDone rest
    .ok (.hash u seed bytes)
  | .stepBytes => do
    let (step, rest) ← numberOperand cs
    let (bytes, rest) ← bytesOperand (← comma rest)
    lineDone rest
    .ok (.absorbs u step bytes)

/-- One line: nothing (blank, or a comment alone), or a command (R79). DESIGN CHOICE (log entry 11): a mnemonic ends at the first character
that is no letter and no digit, so no white space is needed before a quoted operand; R79 does not say where white space is needed. -/
def parseLine (line : List Char) : Except AsmError (Option AsmCommand) :=
  match skipBlanks line with
  | [] => .ok none
  | ';' :: _ => .ok none
  | cs =>
    match lookupMnemonic (cs.takeWhile Char.isAlphanum) with
    | none => .error .unknownMnemonic
    | some (f, u) => do
      let c ← operands f u (cs.dropWhile Char.isAlphanum)
      .ok (some c)

/-- The lines of a text. -/
def splitLines : List Char → List (List Char)
  | [] => [[]]
  | c :: cs =>
    if c = '\n' then [] :: splitLines cs
    else
      match splitLines cs with
      | [] => [[c]]
      | l :: ls => (c :: l) :: ls

/-- The commands of one line. -/
def lineCommands (line : List Char) : Except AsmError (List Instr) := do
  match ← parseLine line with
  | none => .ok []
  | some c => c.expand

/-- The commands of lines, in order. -/
def allCommands : List (List Char) → Except AsmError (List Instr)
  | [] => .ok []
  | l :: ls => do
    let here ← lineCommands l
    let later ← allCommands ls
    .ok (here ++ later)

/-- The frames of a text (R79): the bytes the host sends to a block with these parameters. DESIGN CHOICE (log entry 11): a data field whose
length its length field cannot hold, of 2^64 bytes or more by default, is an error, since no frame carries it (92_eei_decisions.md D28);
R79 does not say. -/
def assemble (g : Config) (text : List Char) : Except AsmError (List Byte) := do
  let is ← allCommands (splitLines text)
  if is.all (Instr.wellFormed g) then .ok (encodeAll g is) else .error .dataLength

end Sys2Proof.Machine
end

