-- ==== Sys2Proof/Machine/Flags.lean ====
section
/-! DEFINITION. The status register of the block (10_state.md R25). -/

namespace Sys2Proof.Machine

/-- The code of a lifecycle value (R23). -/
def Life.code : Life → BitVec 2
  | .uninit => 0#2
  | .active => 1#2
  | .finalized => 2#2

/-- The code of a fault cause (60_exceptions.md R201). -/
def Cause.code : Cause → BitVec 4
  | .none => 0#4
  | .illegalCommand => 1#4
  | .notInitialised => 2#4
  | .absorbAfterFinal => 3#4
  | .doubleFinal => 4#4
  | .countOverflow => 5#4

/-- The code of FUNIT (R25). -/
def unitCode : UnitSel → BitVec 1
  | .u32 => 0#1
  | .u64 => 1#1

/-- STATUS as the host reads it: from bit 31 down, reserved, FUNIT, CAUSE, reserved, HALTED, LIFE64, LIFE32 (R25). -/
def State.status (s : State) : BitVec 32 :=
  0#19 ++ unitCode s.faultReg.funit ++ s.faultReg.cause.code ++ 0#3 ++ BitVec.ofBool s.faultReg.halted ++
    s.u64.life.code ++ s.u32.life.code

end Sys2Proof.Machine
end

