-- ==== Sys2Proof/Machine/HostSide.lean ====
section
/-! DEFINITION. The host, the second agent of the model (20_memory.md R63): what it can do between frames, what it can see
(10_state.md R29), and when a run has ended (70_reset_and_hazards.md R233). -/

namespace Sys2Proof.Machine

/-- What the host can observe (R29). -/
structure Observation where
  response : List Byte
  status : BitVec 32
  cmdIdx : Nat
  deriving DecidableEq, Repr

/-- The host reads the response stream, STATUS and CMDIDX. -/
def State.observe (s : State) : Observation where
  response := s.response
  status := s.status
  cmdIdx := s.cmdIdx

/-- The host appends bytes to the command stream (R63). -/
def State.send (s : State) (bytes : List Byte) : State := { s with stream := s.stream ++ bytes }

/-- The host asserts reset (70_reset_and_hazards.md R230): every piece of state takes its value of 10_state.md R30, a partially received
frame is discarded, and the parameters stay (log entry 16). -/
def State.assertReset (s : State) : State := State.resetWith s.config

/-- How a run stands (R233). -/
inductive RunEnd where
  /-- a complete frame, or an illegal opcode byte, waits to be executed -/
  | running
  /-- the stream is exhausted at a frame boundary and HALTED = 0 -/
  | endedNormally
  /-- HALTED = 1 -/
  | faulted
  /-- the stream ends inside a frame (60_exceptions.md R206) -/
  | stuck
  deriving DecidableEq, Repr

/-- How a run that is in this state stands (R233). -/
def State.runEnd (s : State) : RunEnd :=
  if s.faultReg.halted = true then .faulted
  else
    match s.fetch with
    | .empty => .endedNormally
    | .incomplete => .stuck
    | .illegal _ => .running
    | .frame _ _ => .running

/-- A move of the system of block and host: the block takes its step, or the host acts. -/
inductive Move where
  | blockStep
  | hostSend (bytes : List Byte)
  | hostReset
  deriving DecidableEq, Repr

/-- The state after a move; a block that can take no step stays as it is (60_exceptions.md R206, R214). -/
def State.move (s : State) (m : Move) : State :=
  match m with
  | .blockStep =>
    match step s with
    | .next t => t
    | .fault _ => s
    | .refused _ => s
  | .hostSend bytes => s.send bytes
  | .hostReset => s.assertReset

/-- The state after a history of moves, in order. -/
def State.moves (s : State) (ms : List Move) : State := ms.foldl State.move s

end Sys2Proof.Machine
end

