-- ==== Sys2Proof/Machine/System.lean ====
section
/-! DEFINITION. Several independent blocks (60_exceptions.md R211): each has its own command stream, response stream and STATUS, and they
share nothing. -/

namespace Sys2Proof.Machine

/-- A system of blocks. A block has no identifier of its own (R211); its place in the list stands for the wires to it. -/
abbrev System := List State

/-- The system after a move of the block at place k, or of its host; a place with no block has no moves. -/
def System.move (sys : System) (k : Nat) (m : Move) : System :=
  match sys[k]? with
  | none => sys
  | some s => sys.set k (s.move m)

end Sys2Proof.Machine
end

