-- ==== Sys2Proof/Safety.lean ====
section
/-! DEFINITION. What the claims speak of: running commands one after another, the states that a run can reach, what a fault record may
hold, and the grammar of a run without faults (70_reset_and_hazards.md R232). -/

namespace Sys2Proof.Safety

open Sys2Proof.Machine

/-- The block accepts commands: STATUS.HALTED = 0 (60_exceptions.md R204). -/
abbrev Running (s : State) : Prop := s.faultReg.halted = false

/-- A unit takes an ABSORB of n bytes: it is ACTIVE and its count stays within COUNT_WIDTH bits (60_exceptions.md R202). -/
abbrev TakesAbsorb {L : Type} (g : Config) (v : HashUnit L) (n : Nat) : Prop :=
  v.life = .active ∧ v.count + n ≤ 2 ^ g.countWidth - 1

/-- The field OP of an operation (30_encoding.md R71). -/
def operationCode : Operation → BitVec 2
  | .new => 1#2
  | .absorb => 2#2
  | .final => 3#2

/-- The admission table of 60_exceptions.md R202: what a unit in this life answers a command, where `exceeds` says that the command would
carry the count past 2^COUNT_WIDTH - 1. -/
def admission (op : Operation) (life : Life) (exceeds : Bool) : Option Cause :=
  match op, life, exceeds with
  | .new, _, _ => none
  | .absorb, .uninit, _ => some .notInitialised
  | .absorb, .active, true => some .countOverflow
  | .absorb, .active, false => none
  | .absorb, .finalized, _ => some .absorbAfterFinal
  | .final, .uninit, _ => some .notInitialised
  | .final, .active, _ => none
  | .final, .finalized, _ => some .doubleFinal

/-- The life of the unit a command addresses. -/
def lifeOf (s : State) (u : UnitSel) : Life :=
  match u with
  | .u32 => s.u32.life
  | .u64 => s.u64.life

/-- The byte count of the unit a command addresses. -/
def countOf (s : State) (u : UnitSel) : Nat :=
  match u with
  | .u32 => s.u32.count
  | .u64 => s.u64.count

/-- The command would carry the byte count of the unit it addresses past 2^COUNT_WIDTH - 1 (60_exceptions.md R202, check 4). -/
def exceedsCount (s : State) (i : Instr) : Bool := decide (countOf s i.unit + i.data.length > 2 ^ s.config.countWidth - 1)

/-- The answer with f done to its next state. -/
def mapNext (f : State → State) (r : Result) : Result :=
  match r with
  | .next t => .next (f t)
  | .fault e => .fault e
  | .refused e => .refused e

/-- Commands executed one after another; the first that does not answer a next state ends it. -/
def execAll : List Instr → State → Result
  | [], s => .next s
  | i :: is, s =>
    match exec i s with
    | .next t => execAll is t
    | .fault e => .fault e
    | .refused e => .refused e

/-- What STATUS can say of a fault (10_state.md R25): CAUSE is 0 exactly while HALTED is 0, and FUNIT is 0 when CAUSE is 0 or 1. -/
abbrev FaultReg.coherent (f : FaultReg) : Prop :=
  (f.halted = true ↔ f.cause ≠ .none) ∧ (f.cause = .none ∨ f.cause = .illegalCommand → f.funit = .u32)

/-- A unit's count fits `COUNT_WIDTH` bits once a NEW has given it a value (10_state.md R22, R24). -/
abbrev countFits {L : Type} (g : Config) (v : HashUnit L) : Prop :=
  v.life ≠ .uninit → v.count < 2 ^ g.countWidth

/-- What holds of every state a run reaches: the parameters are as the spec allows; the fault record is coherent; the counts fit; the
response stream is whole digests of 16 bytes (20_memory.md R50, R53); and each completed frame had at least one byte (30_encoding.md
R75). -/
structure StateInv (s : State) : Prop where
  config : s.config.ok = true
  fault : FaultReg.coherent s.faultReg
  count32 : countFits s.config s.u32
  count64 : countFits s.config s.u64
  digests : s.response.length % 16 = 0
  frames : s.cmdIdx ≤ s.streamPos

/-- The commands of one unit among a sequence, by operation. -/
def unitOperations (u : UnitSel) (is : List Instr) : List Operation :=
  (is.filter fun i => decide (i.unit = u)).map Instr.operation

/-- One turn of the grammar of R232: NEW, then k ABSORBs, then possibly FINAL. -/
def turn (t : Nat × Bool) : List Operation :=
  .new :: (List.replicate t.1 .absorb ++ if t.2 then [.final] else [])

/-- A sequence of one unit's operations that the grammar of R232 gives. FINAL is optional in a turn, so every prefix of such a sequence is
one too. -/
def InGrammar (ops : List Operation) : Prop :=
  ∃ turns : List (Nat × Bool), ops = turns.flatMap turn

/-- How many bytes a sequence of commands absorbs, over both units. -/
def totalData (is : List Instr) : Nat := (is.map fun i => i.data.length).sum

/-- Every chunk but the last has a length that is a multiple of 16 (41_mixer_4x32.md R108). -/
abbrev alignedChunks (chunks : List (List Byte)) : Prop :=
  ∀ c ∈ chunks.dropLast, c.length % 16 = 0

end Sys2Proof.Safety
end

