-- ==== Sys2Proof/Certificates/Slice0/Obligations.lean ====
section
/-! DEFINITION. The statements for the provers, from the spec's numbered rules. -/

open Sys2Proof Sys2Proof.Machine Sys2Proof.Safety

/-! ### Notation and encoding -/

/-- R10: the rotation is ((x << r) | (x >> (W - r))) mod 2^W for 0 < r < W, and every rotation amount of a block the spec allows lies
strictly between 0 and W. -/
def Obligations.RotationFollowsTheFormula : Prop :=
  (∀ (w r : Nat) (x : BitVec w), 0 < r → r < w →
    (rotl r x).toNat = ((x.toNat <<< r) ||| (x.toNat >>> (w - r))) % 2 ^ w) ∧
  (∀ g : Config, g.ok = true →
    (∀ i : Lane4, 0 < (g.mix32.get i).rk ∧ (g.mix32.get i).rk < 32 ∧ 0 < (g.mix32.get i).rh ∧ (g.mix32.get i).rh < 32) ∧
    (∀ i : Lane2, 0 < (g.mix64.get i).rk ∧ (g.mix64.get i).rk < 64 ∧ 0 < (g.mix64.get i).rh ∧ (g.mix64.get i).rh < 64)) ∧
  State.reset.config.ok = true

/-- R11: `le` is the sum of b[j] * 2^(8j), and byte j of `enc_le_N(v)` is v[8j+7 : 8j]. -/
def Obligations.LittleEndianFollowsTheFormula : Prop :=
  (∀ bs : List Byte, le bs = ((List.range bs.length).map fun j => (bs.getD j 0#8).toNat * 2 ^ (8 * j)).sum) ∧
  (∀ v : Word32, (encLe32 v).length = 4 ∧ ∀ j < 4, (encLe32 v).getD j 0#8 = v.extractLsb' (8 * j) 8) ∧
  (∀ v : Word64, (encLe64 v).length = 8 ∧ ∀ j < 8, (encLe64 v).getD j 0#8 = v.extractLsb' (8 * j) 8)

/-- The read primitives of the data field (R13, R52): inside the field `DataByte(p)` is data[p], and `DataRead(i, m)` with i + m ≤ n is the
little-endian value of data[i .. i+m-1] (R54), for words of 8m bits (R56), byte p of which is data[i+p]. Nothing is said of a read past the
field, which no rule makes (log entry 18). -/
def Obligations.DataReadsAreTheFieldsBytes : Prop :=
  ∀ data : List Byte,
    (∀ p, (h : p < data.length) → dataByte data p = data[p]) ∧
    ∀ i m, i + m ≤ data.length →
      (dataRead (8 * m) data i m).toNat = le ((data.drop i).take m) ∧
      (dataRead (8 * m) data i m).toNat = ((List.range m).map fun p => (data.getD (i + p) 0#8).toNat * 2 ^ (8 * p)).sum ∧
      ∀ p, p < m → some ((dataRead (8 * m) data i m).extractLsb' (8 * p) 8) = data[i + p]?

/-- R71: the opcode byte {000, V, 00, OP} names unit V and operation OP, and no other byte names any; a set reserved bit or OP = 00 makes the
byte illegal. -/
def Obligations.OpcodeFields : Prop :=
  ∀ o : Byte,
    (∀ u op, decodeOpcode o = some (u, op) ↔
      o.extractLsb' 5 3 = 0#3 ∧ o.extractLsb' 4 1 = unitCode u ∧ o.extractLsb' 2 2 = 0#2 ∧ o.extractLsb' 0 2 = operationCode op) ∧
    (o.extractLsb' 5 3 ≠ 0#3 ∨ o.extractLsb' 2 2 ≠ 0#2 ∨ o.extractLsb' 0 2 = 0#2 ↔ ∀ g rest, decode g (o :: rest) = .illegal o)

/-- The six opcode bytes of the map name their units and operations and begin the frames of the six commands, in the formats N, A and F
(R76, R72 to R74); any other opcode byte is a 1-byte frame that executes nothing, raises ILLEGAL_COMMAND (R76), halts the block and writes
HALTED, CAUSE and FUNIT = 0 and nothing else (R201, R203). Two clauses are the model's choice. That the one byte is consumed, and nothing
after it, is log entry 5, DEDUCED from R204. That the length field of format A has LENW/8 bytes, R73's eight with the default LENW of 64, is
log entry 19 (DESIGN CHOICE) for any other LENW. -/
def Obligations.OpcodeMapIsExactlySix : Prop :=
  decodeOpcode 0x01#8 = some (.u32, .new) ∧ decodeOpcode 0x02#8 = some (.u32, .absorb) ∧
  decodeOpcode 0x03#8 = some (.u32, .final) ∧ decodeOpcode 0x11#8 = some (.u64, .new) ∧
  decodeOpcode 0x12#8 = some (.u64, .absorb) ∧ decodeOpcode 0x13#8 = some (.u64, .final) ∧
  (∀ (g : Config) (seed : Word32) (data : List Byte),
    encode g (.new32 seed) = 0x01#8 :: encLe32 seed ∧
    encode g (.absorb32 data) = 0x02#8 :: (encLe (g.lenWidth / 8) data.length ++ data) ∧
    encode g .final32 = [0x03#8] ∧ encode g (.new64 seed) = 0x11#8 :: encLe32 seed ∧
    encode g (.absorb64 data) = 0x12#8 :: (encLe (g.lenWidth / 8) data.length ++ data) ∧ encode g .final64 = [0x13#8]) ∧
  ∀ (o : Byte) (rest : List Byte) (s : State), Running s → s.stream = o :: rest →
    o ∉ [0x01#8, 0x02#8, 0x03#8, 0x11#8, 0x12#8, 0x13#8] →
    step s = .next { s with
      faultReg := { halted := true, cause := .illegalCommand, funit := .u32 }
      stream := rest
      streamPos := s.streamPos + 1 }

/-- R72, R73, R74, R81: the worked encodings, read by a block with the parameters after reset. -/
def Obligations.WorkedEncodingsDecode : Prop :=
  decode State.reset.config [0x01, 0x78, 0x56, 0x34, 0x12] = .frame (.new32 0x12345678) [] ∧
  decode State.reset.config [0x11, 0x01, 0x00, 0x00, 0x00] = .frame (.new64 1) [] ∧
  decode State.reset.config [0x02, 0x03, 0, 0, 0, 0, 0, 0, 0, 0x61, 0x62, 0x63] = .frame (.absorb32 [0x61, 0x62, 0x63]) [] ∧
  decode State.reset.config [0x12, 0, 0, 0, 0, 0, 0, 0, 0] = .frame (.absorb64 []) [] ∧
  decode State.reset.config [0x03] = .frame .final32 [] ∧ decode State.reset.config [0x13] = .frame .final64 [] ∧
  decode State.reset.config [0x00] = .illegal 0x00 ∧ decode State.reset.config [0x04] = .illegal 0x04 ∧ decode State.reset.config [0x23] = .illegal 0x23

/-- Every well-formed command is read back from its frame, whatever follows it and whatever the width of the length field (R70 to R75, R7).
The ABSORB frame of a LENW other than 64 is the model's choice: log entry 19 (DESIGN CHOICE). -/
def Obligations.DecodeOfEncode : Prop :=
  ∀ (g : Config) (i : Instr) (rest : List Byte), i.wellFormed g = true → decode g (encode g i ++ rest) = .frame i rest

/-- A frame that is read is the encoding of the command read, which is well formed, so that no bit of a frame is dropped; it has 5 bytes for
NEW, 1 + LENW/8 + n for ABSORB and 1 for FINAL. With the default LENW of 64 these are the lengths of R75 (9 + n for ABSORB); for another LENW
the ABSORB frame is the model's choice: log entry 19 (DESIGN CHOICE). -/
def Obligations.EncodeOfDecode : Prop :=
  ∀ (g : Config) (bs rest : List Byte) (i : Instr), decode g bs = .frame i rest →
    i.wellFormed g = true ∧ bs = encode g i ++ rest ∧ (encode g i).length = frameLength g i ∧
    frameLength g i =
      match i.operation with
      | .new => 5
      | .absorb => 1 + g.lenWidth / 8 + i.data.length
      | .final => 1

/-! ### The step -/

/-- When the unread bytes begin with the frame of a command, a step of a block that is not halted is that command's execution, and the
frame is consumed: all of it if the command completes, its opcode byte alone if it faults (log entry 5). -/
def Obligations.StepRunsTheDecodedCommand : Prop :=
  ∀ (s : State) (i : Instr) (rest : List Byte), Running s → decode s.config s.stream = .frame i rest →
    ∃ t, exec i s = .next t ∧
      (Running t → step s = .next { t with stream := rest, streamPos := s.streamPos + frameLength s.config i }) ∧
      (¬ Running t → step s = .next { t with stream := s.stream.drop 1, streamPos := s.streamPos + 1 })

/-- The block waits on exactly the streams that end inside a frame (R206), and the frame is executable once the missing bytes come. That a
block that waits answers the fault `incompleteFrame` is the model's choice (log entry 6), and so is the ABSORB frame of a LENW other than
64 (log entry 19). -/
def Obligations.IncompleteFrameWaits : Prop :=
  (∀ s : State, Running s →
    (step s = .fault .incompleteFrame ↔
      ∃ (i : Instr) (m : Nat), i.wellFormed s.config = true ∧ 0 < m ∧ m < frameLength s.config i ∧
        s.stream = (encode s.config i).take m)) ∧
  (∀ (s : State) (i : Instr) (m : Nat), i.wellFormed s.config = true → 0 < m → m < frameLength s.config i →
    s.stream = (encode s.config i).take m →
    (Running s → s.runEnd = .stuck) ∧ (s.send ((encode s.config i).drop m)).fetch = .frame i [])

/-- A halted block decodes and executes nothing (R204), and only reset clears the fault record. That the step that halts it consumes the
opcode byte (log entry 5), and that a halted block answers the fault `halted` (log entries 6 and 7), are the model's choices. -/
def Obligations.HaltIsStickyUntilReset : Prop :=
  (∀ s : State, ¬ Running s → step s = .fault .halted ∧ ∀ i, exec i s = .fault .halted) ∧
  (∀ s t : State, step s = .next t → ¬ Running t →
    t.stream = s.stream.drop 1 ∧ t.streamPos = s.streamPos + 1) ∧
  (∀ (s : State) (m : Move), ¬ Running s → m ≠ .hostReset → (s.move m).faultReg = s.faultReg ∧ (s.move m).cmdIdx = s.cmdIdx) ∧
  (∀ s : State, Running (s.move .hostReset))

/-- R203: a faulting frame changes HALTED, CAUSE and FUNIT and nothing else: lanes, counts, lives, CMDIDX and the response stream keep their
values. A command's cause is none of 0 and ILLEGAL_COMMAND, and its FUNIT is the command's unit; an illegal opcode byte's cause is
ILLEGAL_COMMAND, and its FUNIT is 0. (How much of the command stream is consumed is not said here.) -/
def Obligations.FaultEntryChangesNothingElse : Prop :=
  (∀ (i : Instr) (s t : State), exec i s = .next t → ¬ Running t →
    ∃ c, c ≠ Cause.none ∧ c ≠ Cause.illegalCommand ∧
      t = { s with faultReg := { halted := true, cause := c, funit := i.unit } }) ∧
  (∀ s t : State, step s = .next t → ¬ Running t →
    ∃ c u, c ≠ Cause.none ∧
      (∀ i rest, decode s.config s.stream = .frame i rest → c ≠ .illegalCommand ∧ u = i.unit) ∧
      (∀ o, decode s.config s.stream = .illegal o → c = .illegalCommand ∧ u = .u32) ∧
      ((∃ i rest, decode s.config s.stream = .frame i rest) ∨ ∃ o, decode s.config s.stream = .illegal o) ∧
      t = { s with
        faultReg := { halted := true, cause := c, funit := u }, stream := t.stream, streamPos := t.streamPos })

/-- R202: the admission table is the full statement of which life values each command accepts, and of the cause reported. -/
def Obligations.AdmissionFollowsTheTable : Prop :=
  (∀ (i : Instr) (s : State), Running s →
    ∃ t, exec i s = .next t ∧
      (∀ c, admission i.operation (lifeOf s i.unit) (exceedsCount s i) = some c →
        t = { s with faultReg := { halted := true, cause := c, funit := i.unit } }) ∧
      (admission i.operation (lifeOf s i.unit) (exceedsCount s i) = none → Running t ∧ t.cmdIdx = s.cmdIdx + 1)) ∧
  (∀ (s : State) (o : Byte) (rest : List Byte), Running s → s.stream = o :: rest → decodeOpcode o = none →
    ∃ t, step s = .next t ∧ t.faultReg = { halted := true, cause := .illegalCommand, funit := .u32 })

/-- R26: CMDIDX is 0 after reset; a frame that completes adds 1 and a frame that faults adds nothing; the host can read it. -/
def Obligations.CmdIdxCountsCompletedFrames : Prop :=
  State.reset.cmdIdx = 0 ∧ (∀ s : State, s.assertReset.cmdIdx = 0 ∧ s.observe.cmdIdx = s.cmdIdx) ∧
  (∀ s t : State, step s = .next t →
    (Running t → t.cmdIdx = s.cmdIdx + 1) ∧ (¬ Running t → t.cmdIdx = s.cmdIdx))

/-- R53: a FINAL that completes appends the 16 bytes of its digest to the response stream; nothing else appends a byte. -/
def Obligations.OnlyCompletedFinalsRespond : Prop :=
  ∀ s t : State, step s = .next t →
    (∀ rest, decode s.config s.stream = .frame .final32 rest → Running t →
      t.response = s.response ++ digest32 t.u32.lanes ∧ (digest32 t.u32.lanes).length = 16) ∧
    (∀ rest, decode s.config s.stream = .frame .final64 rest → Running t →
      t.response = s.response ++ digest64 t.u64.lanes ∧ (digest64 t.u64.lanes).length = 16) ∧
    (((∀ i rest, decode s.config s.stream = .frame i rest → i.operation ≠ .final) ∨ ¬ Running t) → t.response = s.response)

/-- How a run stands (R233) decides what a step answers, and no step is refused. The names of the answers are the model's (log entry 6). -/
def Obligations.RunEndDecidesTheStep : Prop :=
  ∀ s : State,
    (s.runEnd = .running ↔ ∃ t, step s = .next t) ∧ (s.runEnd = .faulted ↔ step s = .fault .halted) ∧
    (s.runEnd = .stuck ↔ step s = .fault .incompleteFrame) ∧ (s.runEnd = .endedNormally ↔ step s = .fault .endOfStream) ∧
    (s.runEnd = .endedNormally ↔ s.stream = [] ∧ Running s) ∧ ∀ e, step s ≠ .refused e

/-- A step sees none of the bytes after its frame: bytes that arrive later change neither what the step does nor whether it is taken
(R51, R60). -/
def Obligations.StepIgnoresLaterBytes : Prop :=
  ∀ (s t : State) (bytes : List Byte), step s = .next t → step (s.send bytes) = .next (t.send bytes)

/-- Running the bytes of a sequence of frames is executing their commands in order, each frame consumed (R51, R70). -/
def Obligations.StreamRunsItsCommandsInOrder : Prop :=
  ∀ (is : List Instr) (s t : State) (rest : List Byte), (∀ i ∈ is, i.wellFormed s.config = true) →
    s.stream = encodeAll s.config is ++ rest → execAll is s = .next t → Running s → Running t →
    Sys2Proof.core.run is.length s = .next { t with stream := rest, streamPos := s.streamPos + (encodeAll s.config is).length }

/-! ### Reset, status, invariants -/

/-- The parameters of the block after reset: COUNT_WIDTH and LENW are 64 (R7, R22), so that the length field has eight bytes (R73), and the
constant tables are those of R100 and R130 with the multipliers of R165 and R166. The values of the tables are UNVERIFIED: the spec has
them from general knowledge (log entry 3). That the parameters are a field of the state is the model's choice (log entry 2). -/
def Obligations.DefaultParameters : Prop :=
  State.reset.config.countWidth = 64 ∧ State.reset.config.lenWidth = 64 ∧ State.reset.config.lenBytes = 8 ∧
  State.reset.config.mix32 = {
    h1 := { c := 0x239b961b#32, rk := 15, rh := 19, n := 0x561ccd1b#32 }
    h2 := { c := 0xab0e9789#32, rk := 16, rh := 17, n := 0x0bcaa747#32 }
    h3 := { c := 0x38b34ae5#32, rk := 17, rh := 15, n := 0x96cd1c35#32 }
    h4 := { c := 0xa1e38b93#32, rk := 18, rh := 13, n := 0x32ac3b17#32 } } ∧
  State.reset.config.mix64 = {
    h1 := { c := 0x87c37b91114253d5#64, rk := 31, rh := 27, n := 0x0000000052dce729#64 }
    h2 := { c := 0x4cf5ad432745937f#64, rk := 33, rh := 31, n := 0x0000000038495ab5#64 } } ∧
  State.reset.config.fmix32 = { m1 := 0x85ebca6b#32, m2 := 0xc2b2ae35#32 } ∧
  State.reset.config.fmix64 = { m1 := 0xff51afd7ed558ccd#64, m2 := 0xc4ceb9fe1a85ec53#64 }

/-- What reset leaves (R30, R230): both units UNINIT, STATUS and CMDIDX 0, the response stream empty, no byte received, the position at the
first frame. Of the lanes and counts nothing is said: they hold no value (log entry 1). -/
def Obligations.ResetLeavesTheResetState : Prop :=
  ∀ s t : State, t = s.assertReset ∨ t = State.reset →
    t.u32.life = .uninit ∧ t.u64.life = .uninit ∧ t.observe = ⟨[], 0x00000000#32, 0⟩ ∧ t.stream = [] ∧ t.streamPos = 0 ∧
    (∀ bytes, (t.send bytes).fetch = decode t.config bytes)

/-- What the host observes in every state is the response stream, STATUS and CMDIDX (R29, R63). The fields of STATUS (R25): the LIFE fields
mirror the units, the reserved bits read 0, the codes are legal; and with a coherent fault record CAUSE is 0 while HALTED is 0 and FUNIT is
0 while CAUSE is 0 or 1. -/
def Obligations.StatusFieldsStandWhereTheyShould : Prop :=
  ∀ s : State,
    s.observe = { response := s.response, status := s.status, cmdIdx := s.cmdIdx } ∧
    s.status.extractLsb' 0 2 = s.u32.life.code ∧ s.status.extractLsb' 2 2 = s.u64.life.code ∧
    s.status.getLsbD 4 = s.faultReg.halted ∧ s.status.extractLsb' 5 3 = 0#3 ∧
    s.status.extractLsb' 8 4 = s.faultReg.cause.code ∧ s.status.getLsbD 12 = decide (s.faultReg.funit = .u64) ∧
    s.status.extractLsb' 13 19 = 0#19 ∧
    (s.status.extractLsb' 0 2).toNat ≤ 2 ∧ (s.status.extractLsb' 2 2).toNat ≤ 2 ∧ (s.status.extractLsb' 8 4).toNat ≤ 5 ∧
    (FaultReg.coherent s.faultReg →
      (s.status.getLsbD 4 = false ↔ s.status.extractLsb' 8 4 = 0#4) ∧
      ((s.status.extractLsb' 8 4).toNat ≤ 1 → s.status.getLsbD 12 = false))

/-- The state after reset meets the invariant, for every configuration the spec allows. -/
def Obligations.ResetMeetsTheInvariant : Prop :=
  StateInv State.reset ∧ ∀ g : Config, g.ok = true → StateInv (State.resetWith g)

/-- Every step keeps the invariant: counts within COUNT_WIDTH bits, a coherent fault record, whole digests, CMDIDX within the bytes
consumed, the parameters as the spec allows. -/
def Obligations.StepKeepsTheInvariant : Prop :=
  ∀ s t : State, StateInv s → step s = .next t → StateInv t

/-- Whatever the host does and however its actions fall between the steps, the invariant holds of every state reached, and the parameters
are those the block was built with. -/
def Obligations.EveryHistoryKeepsTheInvariant : Prop :=
  ∀ (s : State) (ms : List Move), StateInv s → StateInv (s.moves ms) ∧ (s.moves ms).config = s.config

/-! ### Unit U32 -/

/-- R101: kmix32 multiplies by this lane's constant, rotates, multiplies by the next lane's (lane 4's next is lane 1); the primary mix XORs
it into its lane alone. -/
def Obligations.PrimaryMix32 : Prop :=
  ∀ (g : Config) (k : Word32) (h : Quad Word32),
    kmix32 g .one k = rotl g.mix32.h1.rk (k * g.mix32.h1.c) * g.mix32.h2.c ∧
    kmix32 g .two k = rotl g.mix32.h2.rk (k * g.mix32.h2.c) * g.mix32.h3.c ∧
    kmix32 g .three k = rotl g.mix32.h3.rk (k * g.mix32.h3.c) * g.mix32.h4.c ∧
    kmix32 g .four k = rotl g.mix32.h4.rk (k * g.mix32.h4.c) * g.mix32.h1.c ∧
    ∀ i, (primary32 g i k h).get i = h.get i ^^^ kmix32 g i k ∧
      ∀ j, j ≠ i → (primary32 g i k h).get j = h.get j

/-- R102: the four lanes of a full block, in order: lanes 1 to 3 add the successor as it was before the block, lane 4 adds the new
lane 1. -/
def Obligations.FullBlock32 : Prop :=
  ∀ (g : Config) (data : List Byte) (h : Quad Word32) (j : Nat) (n1 n2 n3 n4 : Word32),
    n1 = (rotl g.mix32.h1.rh (h.h1 ^^^ kmix32 g .one (dataRead 32 data (16 * j) 4)) + h.h2) * 5 + g.mix32.h1.n →
    n2 = (rotl g.mix32.h2.rh (h.h2 ^^^ kmix32 g .two (dataRead 32 data (16 * j + 4) 4)) + h.h3) * 5 + g.mix32.h2.n →
    n3 = (rotl g.mix32.h3.rh (h.h3 ^^^ kmix32 g .three (dataRead 32 data (16 * j + 8) 4)) + h.h4) * 5 + g.mix32.h3.n →
    n4 = (rotl g.mix32.h4.rh (h.h4 ^^^ kmix32 g .four (dataRead 32 data (16 * j + 12) 4)) + n1) * 5 + g.mix32.h4.n →
    block32 g data h j = ⟨n1, n2, n3, n4⟩

/-- R103: each tail byte stands at its little-endian position in its k word, every other byte of the k words is 0, and a lane that
received at least one byte gets the primary mix alone. -/
def Obligations.TailStep32 : Prop :=
  ∀ (g : Config) (data : List Byte) (base t : Nat) (h : Quad Word32), t ≤ 15 →
    (∀ p < 16, ((tailWords32 data base t).get (Lane4.after (p / 4))).extractLsb' (8 * (p % 4)) 8 =
      if p < t then dataByte data (base + p) else 0#8) ∧
    ∀ i : Lane4, (tail32 g data base t h).get i =
      if t > 4 * i.before then h.get i ^^^ kmix32 g i ((tailWords32 data base t).get i) else h.get i

/-- R104: NEW32 sets every lane to the seed, the count to 0 and the unit ACTIVE, in every life state; STATUS.LIFE32 becomes 1 and no other
STATUS field changes. -/
def Obligations.New32Effect : Prop :=
  ∀ (seed : Word32) (s : State), Running s →
    ∃ t, exec (.new32 seed) s = .next t ∧
      t = { s with u32 := { lanes := ⟨seed, seed, seed, seed⟩, count := 0, life := .active }, cmdIdx := s.cmdIdx + 1 } ∧
      t.status.extractLsb' 0 2 = 1#2 ∧ t.status.extractLsb' 2 30 = s.status.extractLsb' 2 30

/-- R105: ABSORB32 faults by the three checks in order, before any write; otherwise it runs the full blocks of this call in order, then the
tail, and adds n to the count. -/
def Obligations.Absorb32Effect : Prop :=
  ∀ (data : List Byte) (s : State), Running s →
    (s.u32.life = .uninit →
      exec (.absorb32 data) s = .next { s with faultReg := { halted := true, cause := .notInitialised, funit := .u32 } }) ∧
    (s.u32.life = .finalized →
      exec (.absorb32 data) s = .next { s with faultReg := { halted := true, cause := .absorbAfterFinal, funit := .u32 } }) ∧
    (s.u32.life = .active → s.u32.count + data.length > 2 ^ s.config.countWidth - 1 →
      exec (.absorb32 data) s = .next { s with faultReg := { halted := true, cause := .countOverflow, funit := .u32 } }) ∧
    (TakesAbsorb s.config s.u32 data.length →
      exec (.absorb32 data) s = .next { s with
        u32 := {
          lanes := tail32 s.config data (16 * (data.length / 16)) (data.length % 16)
            ((List.range (data.length / 16)).foldl (block32 s.config data) s.u32.lanes)
          count := s.u32.count + data.length
          life := .active }
        cmdIdx := s.cmdIdx + 1 })

/-! ### Unit U64 -/

/-- R131: the same for U64, whose two lanes follow each other. -/
def Obligations.PrimaryMix64 : Prop :=
  ∀ (g : Config) (k : Word64) (h : Duo Word64),
    kmix64 g .one k = rotl g.mix64.h1.rk (k * g.mix64.h1.c) * g.mix64.h2.c ∧
    kmix64 g .two k = rotl g.mix64.h2.rk (k * g.mix64.h2.c) * g.mix64.h1.c ∧
    ∀ i, (primary64 g i k h).get i = h.get i ^^^ kmix64 g i k ∧
      ∀ j, j ≠ i → (primary64 g i k h).get j = h.get j

/-- R132: lane 1 adds lane 2 from before the block, lane 2 adds the new lane 1. -/
def Obligations.FullBlock64 : Prop :=
  ∀ (g : Config) (data : List Byte) (h : Duo Word64) (j : Nat) (n1 n2 : Word64),
    n1 = (rotl g.mix64.h1.rh (h.h1 ^^^ kmix64 g .one (dataRead 64 data (16 * j) 8)) + h.h2) * 5 + g.mix64.h1.n →
    n2 = (rotl g.mix64.h2.rh (h.h2 ^^^ kmix64 g .two (dataRead 64 data (16 * j + 8) 8)) + n1) * 5 + g.mix64.h2.n →
    block64 g data h j = ⟨n1, n2⟩

/-- R133: the tail step of U64, split at byte offset 8. -/
def Obligations.TailStep64 : Prop :=
  ∀ (g : Config) (data : List Byte) (base t : Nat) (h : Duo Word64), t ≤ 15 →
    (∀ p < 16, ((tailWords64 data base t).get (Lane2.after (p / 8))).extractLsb' (8 * (p % 8)) 8 =
      if p < t then dataByte data (base + p) else 0#8) ∧
    ∀ i : Lane2, (tail64 g data base t h).get i =
      if t > 8 * i.before then h.get i ^^^ kmix64 g i ((tailWords64 data base t).get i) else h.get i

/-- R134: NEW64 sets both lanes to the zero-extended seed, the count to 0 and the unit ACTIVE; STATUS.LIFE64 becomes 1 and no other STATUS
field changes. -/
def Obligations.New64Effect : Prop :=
  ∀ (seed : Word32) (s : State), Running s →
    ∃ t, exec (.new64 seed) s = .next t ∧
      t = { s with u64 := { lanes := ⟨seed.zeroExtend 64, seed.zeroExtend 64⟩, count := 0, life := .active }, cmdIdx := s.cmdIdx + 1 } ∧
      t.status.extractLsb' 2 2 = 1#2 ∧ t.status.extractLsb' 0 2 = s.status.extractLsb' 0 2 ∧
      t.status.extractLsb' 4 28 = s.status.extractLsb' 4 28

/-- R135: ABSORB64, as R105 with the steps of U64. -/
def Obligations.Absorb64Effect : Prop :=
  ∀ (data : List Byte) (s : State), Running s →
    (s.u64.life = .uninit →
      exec (.absorb64 data) s = .next { s with faultReg := { halted := true, cause := .notInitialised, funit := .u64 } }) ∧
    (s.u64.life = .finalized →
      exec (.absorb64 data) s = .next { s with faultReg := { halted := true, cause := .absorbAfterFinal, funit := .u64 } }) ∧
    (s.u64.life = .active → s.u64.count + data.length > 2 ^ s.config.countWidth - 1 →
      exec (.absorb64 data) s = .next { s with faultReg := { halted := true, cause := .countOverflow, funit := .u64 } }) ∧
    (TakesAbsorb s.config s.u64 data.length →
      exec (.absorb64 data) s = .next { s with
        u64 := {
          lanes := tail64 s.config data (16 * (data.length / 16)) (data.length % 16)
            ((List.range (data.length / 16)).foldl (block64 s.config data) s.u64.lanes)
          count := s.u64.count + data.length
          life := .active }
        cmdIdx := s.cmdIdx + 1 })

/-! ### Derived laws of absorbing -/

/-- Tail equivalence (R107, R136): mixing every lane with its zero-filled k word gives the same lanes as the affected test, since the mix of
0 is 0 (the spec's own inference in R101 and R131). -/
def Obligations.TailMayMixEveryLane : Prop :=
  (∀ (g : Config) (i : Lane4), kmix32 g i 0#32 = 0#32) ∧ (∀ (g : Config) (i : Lane2), kmix64 g i 0#64 = 0#64) ∧
  (∀ (g : Config) (data : List Byte) (base t : Nat) (h : Quad Word32), t ≤ 15 →
    ∀ i, (tail32 g data base t h).get i = h.get i ^^^ kmix32 g i ((tailWords32 data base t).get i)) ∧
  (∀ (g : Config) (data : List Byte) (base t : Nat) (h : Duo Word64), t ≤ 15 →
    ∀ i, (tail64 g data base t h).get i = h.get i ^^^ kmix64 g i ((tailWords64 data base t).get i))

/-- A zero-length ABSORB on an ACTIVE unit only adds 1 to CMDIDX (R106, R136). -/
def Obligations.ZeroLengthAbsorbOnlyCounts : Prop :=
  (∀ s : State, Running s → TakesAbsorb s.config s.u32 0 → exec (.absorb32 []) s = .next { s with cmdIdx := s.cmdIdx + 1 }) ∧
  (∀ s : State, Running s → TakesAbsorb s.config s.u64 0 → exec (.absorb64 []) s = .next { s with cmdIdx := s.cmdIdx + 1 })

/-- Aligned chunking of U32 (R108): chunks, each but the last a multiple of 16 bytes long, leave what their concatenation leaves in one
ABSORB32; only CMDIDX tells them apart. -/
def Obligations.AlignedChunking32 : Prop :=
  ∀ (cs : List (List Byte)) (s : State), Running s → TakesAbsorb s.config s.u32 cs.flatten.length → alignedChunks cs →
    ∃ t, exec (.absorb32 cs.flatten) s = .next t ∧ Running t ∧
      execAll (cs.map .absorb32) s = .next { t with cmdIdx := s.cmdIdx + cs.length }

/-- Aligned chunking of U64 (R137). -/
def Obligations.AlignedChunking64 : Prop :=
  ∀ (cs : List (List Byte)) (s : State), Running s → TakesAbsorb s.config s.u64 cs.flatten.length → alignedChunks cs →
    ∃ t, exec (.absorb64 cs.flatten) s = .next t ∧ Running t ∧
      execAll (cs.map .absorb64) s = .next { t with cmdIdx := s.cmdIdx + cs.length }

/-! ### Finalization -/

/-- R161 and R162: the count modulo 2^32, or 2^64, is XORed into every lane. -/
def Obligations.XorLenTakesTheCountModuloTheLane : Prop :=
  (∀ (count : Nat) (h : Quad Word32) (l : Word32), l.toNat = count % 2 ^ 32 →
    xorLen32 count h = ⟨h.h1 ^^^ l, h.h2 ^^^ l, h.h3 ^^^ l, h.h4 ^^^ l⟩) ∧
  (∀ (count : Nat) (h : Duo Word64) (l : Word64), l.toNat = count % 2 ^ 64 →
    xorLen64 count h = ⟨h.h1 ^^^ l, h.h2 ^^^ l⟩)

/-- R163 and R164: lane 1 becomes the sum of all lanes, and every other lane adds the new lane 1, so that lane 2 of U32 ends as
h1 + 2*h2 + h3 + h4 (90_conflicts.md C9), and not as the sum of the other three. -/
def Obligations.CrossAddOrder : Prop :=
  (∀ a b c d n1 : Word32, n1 = a + b + c + d → crossAdd32 ⟨a, b, c, d⟩ = ⟨n1, b + n1, c + n1, d + n1⟩) ∧
  (∀ a b n1 : Word64, n1 = a + b → crossAdd64 ⟨a, b⟩ = ⟨n1, b + n1⟩) ∧
  (∀ a b c d : Word32, crossAdd32 ⟨a, b, c, d⟩ =
    ⟨a + b + c + d, a + 2 * b + c + d, a + b + 2 * c + d, a + b + c + 2 * d⟩) ∧
  (∀ a b : Word64, crossAdd64 ⟨a, b⟩ = ⟨a + b, a + 2 * b⟩)

/-- R165 and R166: the two avalanche mixes of a block with the default parameters, each lane on its own. -/
def Obligations.AvalancheMixes : Prop :=
  (∀ x a b c d : Word32, a = x ^^^ (x >>> 16) → b = a * 0x85ebca6b → c = b ^^^ (b >>> 13) → d = c * 0xc2b2ae35 →
    fmix32 State.reset.config x = d ^^^ (d >>> 16)) ∧
  (∀ x a b c d : Word64, a = x ^^^ (x >>> 33) → b = a * 0xff51afd7ed558ccd → c = b ^^^ (b >>> 33) → d = c * 0xc4ceb9fe1a85ec53 →
    fmix64 State.reset.config x = d ^^^ (d >>> 33)) ∧
  (∀ (g : Config) (h : Quad Word32) (i : Lane4), (fmixLanes32 g h).get i = fmix32 g (h.get i)) ∧
  (∀ (g : Config) (h : Duo Word64) (i : Lane2), (fmixLanes64 g h).get i = fmix64 g (h.get i))

/-- fmix32 and fmix64 are bijections that fix 0 (R172), whatever odd multipliers the block is built with. -/
def Obligations.AvalancheMixesAreBijections : Prop :=
  ∀ g : Config, g.ok = true →
    Function.Bijective (fmix32 g) ∧ Function.Bijective (fmix64 g) ∧ fmix32 g 0#32 = 0#32 ∧ fmix64 g 0#64 = 0#64

/-- R167 and R168: digest byte 4(i-1)+b is bits 8b+7 to 8b of lane i of U32, and 8(i-1)+b of lane i of U64; a digest is 16 bytes. -/
def Obligations.DigestBytes : Prop :=
  (∀ h : Quad Word32, (digest32 h).length = 16 ∧
    ∀ (i : Lane4) (b : Nat), b < 4 → (digest32 h)[4 * i.before + b]? = some ((h.get i).extractLsb' (8 * b) 8)) ∧
  (∀ h : Duo Word64, (digest64 h).length = 16 ∧
    ∀ (i : Lane2) (b : Nat), b < 8 → (digest64 h)[8 * i.before + b]? = some ((h.get i).extractLsb' (8 * b) 8))

/-- R169: FINAL32 faults by the two checks, and then nothing is emitted; otherwise it runs the pipeline, writes the lanes back, emits the
digest and makes the unit FINALIZED, with STATUS.LIFE32 = 2. -/
def Obligations.Final32Effect : Prop :=
  ∀ s : State, Running s →
    (s.u32.life = .uninit →
      exec .final32 s = .next { s with faultReg := { halted := true, cause := .notInitialised, funit := .u32 } }) ∧
    (s.u32.life = .finalized →
      exec .final32 s = .next { s with faultReg := { halted := true, cause := .doubleFinal, funit := .u32 } }) ∧
    (s.u32.life = .active → ∀ h, h = crossAdd32 (fmixLanes32 s.config (crossAdd32 (xorLen32 s.u32.count s.u32.lanes))) →
      ∃ t, exec .final32 s = .next t ∧
        t = { s with
          u32 := { lanes := h, count := s.u32.count, life := .finalized }
          response := s.response ++ (encLe32 h.h1 ++ encLe32 h.h2 ++ encLe32 h.h3 ++ encLe32 h.h4)
          cmdIdx := s.cmdIdx + 1 } ∧
        t.status.extractLsb' 0 2 = 2#2 ∧ t.status.extractLsb' 2 30 = s.status.extractLsb' 2 30)

/-- R170: FINAL64, as R169 with the stages of U64. -/
def Obligations.Final64Effect : Prop :=
  ∀ s : State, Running s →
    (s.u64.life = .uninit →
      exec .final64 s = .next { s with faultReg := { halted := true, cause := .notInitialised, funit := .u64 } }) ∧
    (s.u64.life = .finalized →
      exec .final64 s = .next { s with faultReg := { halted := true, cause := .doubleFinal, funit := .u64 } }) ∧
    (s.u64.life = .active → ∀ h, h = crossAdd64 (fmixLanes64 s.config (crossAdd64 (xorLen64 s.u64.count s.u64.lanes))) →
      ∃ t, exec .final64 s = .next t ∧
        t = { s with
          u64 := { lanes := h, count := s.u64.count, life := .finalized }
          response := s.response ++ (encLe64 h.h1 ++ encLe64 h.h2)
          cmdIdx := s.cmdIdx + 1 } ∧
        t.status.extractLsb' 2 2 = 2#2 ∧ t.status.extractLsb' 0 2 = s.status.extractLsb' 0 2 ∧
        t.status.extractLsb' 4 28 = s.status.extractLsb' 4 28)

/-- Seed 0 and empty input give 16 zero bytes on either unit, whatever the constants (R172). -/
def Obligations.EmptyInputWithSeedZero : Prop :=
  ∀ s : State, Running s →
    (∃ t, execAll [.new32 0, .absorb32 [], .final32] s = .next t ∧ t.response = s.response ++ List.replicate 16 0#8) ∧
    (∃ t, execAll [.new64 0, .absorb64 [], .final64] s = .next t ∧ t.response = s.response ++ List.replicate 16 0#8)

/-- R171: after a FINAL of a unit, and any commands of the other unit, a second FINAL faults with DOUBLE_FINAL, an ABSORB with
ABSORB_AFTER_FINAL, and NEW starts over. -/
def Obligations.FinalizedUnitAwaitsNew : Prop :=
  (∀ (s t v : State) (is : List Instr), exec .final32 s = .next t → Running t → (∀ i ∈ is, i.unit = .u64) →
    execAll is t = .next v → Running v →
    v.u32.lanes = finalLanes32 s.config s.u32.count s.u32.lanes ∧
    exec .final32 v = .next { v with faultReg := { halted := true, cause := .doubleFinal, funit := .u32 } } ∧
    (∀ data, exec (.absorb32 data) v =
      .next { v with faultReg := { halted := true, cause := .absorbAfterFinal, funit := .u32 } }) ∧
    (∀ seed, ∃ w, exec (.new32 seed) v = .next w ∧ w.u32 = { lanes := ⟨seed, seed, seed, seed⟩, count := 0, life := .active })) ∧
  (∀ (s t v : State) (is : List Instr), exec .final64 s = .next t → Running t → (∀ i ∈ is, i.unit = .u32) →
    execAll is t = .next v → Running v →
    v.u64.lanes = finalLanes64 s.config s.u64.count s.u64.lanes ∧
    exec .final64 v = .next { v with faultReg := { halted := true, cause := .doubleFinal, funit := .u64 } } ∧
    (∀ data, exec (.absorb64 data) v =
      .next { v with faultReg := { halted := true, cause := .absorbAfterFinal, funit := .u64 } }) ∧
    (∀ seed, ∃ w, exec (.new64 seed) v = .next w ∧
      w.u64 = { lanes := ⟨seed.zeroExtend 64, seed.zeroExtend 64⟩, count := 0, life := .active }))

/-! ### Frames and the whole machine -/

/-- What NEW32 and NEW64 leave unchanged: the other unit, the fault record, the response stream, the command stream. -/
def Obligations.NewFrame : Prop :=
  ∀ (i : Instr) (s t : State), i.operation = .new → exec i s = .next t →
    (i.unit = .u32 → t.u64 = s.u64) ∧ (i.unit = .u64 → t.u32 = s.u32) ∧ t.config = s.config ∧ t.faultReg = s.faultReg ∧
    t.response = s.response ∧ t.stream = s.stream ∧ t.streamPos = s.streamPos

/-- What ABSORB32 and ABSORB64 leave unchanged: the other unit, their own unit's life, the response stream, the command stream; and the
fault record when they complete, their own unit and CMDIDX when they fault. -/
def Obligations.AbsorbFrame : Prop :=
  ∀ (i : Instr) (s t : State), i.operation = .absorb → exec i s = .next t →
    (i.unit = .u32 → t.u64 = s.u64) ∧ (i.unit = .u64 → t.u32 = s.u32) ∧ t.u32.life = s.u32.life ∧ t.u64.life = s.u64.life ∧
    t.config = s.config ∧ t.response = s.response ∧ t.stream = s.stream ∧ t.streamPos = s.streamPos ∧
    (Running t → t.faultReg = s.faultReg) ∧ (¬ Running t → t.u32 = s.u32 ∧ t.u64 = s.u64 ∧ t.cmdIdx = s.cmdIdx)

/-- What FINAL32 and FINAL64 leave unchanged: the other unit, both counts, every response byte already emitted, the command stream; and
the fault record when they complete, everything else when they fault. -/
def Obligations.FinalFrame : Prop :=
  ∀ (i : Instr) (s t : State), i.operation = .final → exec i s = .next t →
    (i.unit = .u32 → t.u64 = s.u64) ∧ (i.unit = .u64 → t.u32 = s.u32) ∧ t.u32.count = s.u32.count ∧ t.u64.count = s.u64.count ∧
    t.config = s.config ∧ t.response.take s.response.length = s.response ∧ t.stream = s.stream ∧ t.streamPos = s.streamPos ∧
    (Running t → t.faultReg = s.faultReg) ∧
    (¬ Running t → t.u32 = s.u32 ∧ t.u64 = s.u64 ∧ t.cmdIdx = s.cmdIdx ∧ t.response = s.response)

/-- R2: no command addressed to one unit reads or writes the other unit. Executing it with the other unit replaced by anything gives the
same answer, with that replacement and nothing else. (The halt, which both units share, is a field of its own: R204.) -/
def Obligations.UnitsDoNotInterfere : Prop :=
  ∀ (i : Instr) (s : State),
    (i.unit = .u32 → ∀ v, exec i (s.setU64 v) = mapNext (fun t => t.setU64 v) (exec i s)) ∧
    (i.unit = .u64 → ∀ v, exec i (s.setU32 v) = mapNext (fun t => t.setU32 v) (exec i s))

/-- No command reads the streams or CMDIDX: where its frame stands, what follows it, what has been emitted and how many frames came before
change nothing of what it does to the units and the fault record, nor of the bytes it emits (R27, R55, R57, R62). -/
def Obligations.CommandsReadNoStream : Prop :=
  ∀ (i : Instr) (s : State) (x r : List Byte) (n k : Nat),
    exec i { s with stream := x, streamPos := n, response := r, cmdIdx := k } =
      mapNext (fun t => { t with
        stream := x
        streamPos := n
        response := r ++ t.response.drop s.response.length
        cmdIdx := k + (t.cmdIdx - s.cmdIdx) }) (exec i s)

/-- A run of commands raises no fault exactly when each unit's commands follow the grammar (NEW ABSORB* [FINAL])* of R232, provided that the
data all together stays within COUNT_WIDTH bits; and without that proviso a run that raises no fault still follows it. -/
def Obligations.FaultFreeRunsFollowTheGrammar : Prop :=
  ∀ (is : List Instr) (s : State), Running s → s.u32.life = .uninit → s.u64.life = .uninit →
    (totalData is ≤ 2 ^ s.config.countWidth - 1 →
      InGrammar (unitOperations .u32 is) → InGrammar (unitOperations .u64 is) → ∃ t, execAll is s = .next t ∧ Running t) ∧
    (∀ t, execAll is s = .next t → Running t → InGrammar (unitOperations .u32 is) ∧ InGrammar (unitOperations .u64 is))

/-- Blocks share nothing (R211): a move at one place leaves every other block as it is, and moves at different places commute. -/
def Obligations.BlocksAreIndependent : Prop :=
  ∀ (sys : System) (j k : Nat) (m n : Move), j ≠ k →
    (System.move sys j m)[k]? = sys[k]? ∧
    System.move (System.move sys j m) k n = System.move (System.move sys k n) j m

/-- R80: the expansions of the pseudo-instructions. The chunks of `absorbs` are the bytes q*step .. min((q+1)*step, L) - 1 for
q = 0 .. ceil(L/step) - 1, and together they are the bytes; an empty field expands to nothing; a step of 0 is an error. -/
def Obligations.PseudoInstructionsExpand : Prop :=
  (∀ (u : UnitSel) (seed : Word32) (bytes : List Byte),
    (AsmCommand.hash u seed bytes).expand = .ok [newOf u seed, absorbOf u bytes, finalOf u]) ∧
  (∀ (u : UnitSel) (bytes : List Byte), (AsmCommand.absorbs u 0 bytes).expand = .error .stepZero) ∧
  (∀ (u : UnitSel) (step : Nat) (bytes : List Byte), 1 ≤ step →
    ∃ cs : List (List Byte), (AsmCommand.absorbs u step bytes).expand = .ok (cs.map (absorbOf u)) ∧ cs.flatten = bytes ∧
      (cs.length = bytes.length / step + if bytes.length % step = 0 then 0 else 1) ∧
      ∀ q, q < cs.length → cs[q]? = some ((bytes.drop (q * step)).take (min ((q + 1) * step) bytes.length - q * step)) ∧
        (cs.getD q []).length = min ((q + 1) * step) bytes.length - q * step)
end

