-- ==== Sys2Proof/Laws/Bytes.lean ====
section
/-! SUPPORT. Little-endian reading and writing are inverse to each other (00_scope.md R11). -/

namespace Sys2Proof

@[simp] theorem encLe_length (m v : Nat) : (encLe m v).length = m := by
  induction m generalizing v with
  | zero => rfl
  | succ m ih => simp [encLe, ih]

theorem le_lt (bs : List Byte) : le bs < 256 ^ bs.length := by
  induction bs with
  | nil => simp [le]
  | cons b bs ih =>
    have hb : b.toNat < 256 := b.isLt
    simp only [le, List.length_cons, Nat.pow_succ]
    omega

/-- Reading what was written gives the number back, modulo the bytes written. -/
theorem le_encLe (m v : Nat) : le (encLe m v) = v % 256 ^ m := by
  induction m generalizing v with
  | zero => simp [encLe, le, Nat.mod_one]
  | succ m ih =>
    have hb : (BitVec.ofNat 8 (v % 256)).toNat = v % 256 := by
      rw [BitVec.toNat_ofNat]
      exact Nat.mod_eq_of_lt (Nat.mod_lt _ (by decide))
    rw [encLe, le, ih, hb, Nat.pow_succ', Nat.mod_mul]

/-- A number that m bytes hold is read back from them whole. -/
theorem le_encLe_of_lt {m v : Nat} (h : v < 2 ^ (8 * m)) : le (encLe m v) = v := by
  rw [le_encLe, Nat.mod_eq_of_lt]
  rwa [Nat.pow_mul] at h

/-- Writing what was read gives the bytes back. -/
theorem encLe_le (bs : List Byte) : encLe bs.length (le bs) = bs := by
  induction bs with
  | nil => rfl
  | cons b bs ih =>
    have hb : b.toNat < 256 := b.isLt
    have hm : (b.toNat + 256 * le bs) % 256 = b.toNat := by omega
    have hd : (b.toNat + 256 * le bs) / 256 = le bs := by omega
    simp only [List.length_cons, encLe, le, hm, hd, ih]
    simp

@[simp] theorem encLe32_length (v : Word32) : (encLe32 v).length = 4 := encLe_length _ _

@[simp] theorem encLe64_length (v : Word64) : (encLe64 v).length = 8 := encLe_length _ _

/-- A 32-bit word is read back from its four bytes. -/
@[simp] theorem leWord_encLe32 (v : Word32) : leWord 32 (encLe32 v) = v := by
  apply BitVec.eq_of_toNat_eq
  have hv : v.toNat < 4294967296 := v.isLt
  simp only [leWord, encLe32, le_encLe, BitVec.toNat_ofNat]
  norm_num
  omega

end Sys2Proof
end

