-- ==== Sys2Proof/Laws/Decode.lean ====
section
/-! SUPPORT. The pieces of the frame decoder, each with one lemma. -/

namespace Sys2Proof

/-- The opcode bytes the decoder takes, with their fields (30_encoding.md R76). -/
theorem decodeOpcode_some {o : Byte} {u : UnitSel} {op : Operation} (h : decodeOpcode o = some (u, op)) :
    (o = 0x01#8 ∧ u = .u32 ∧ op = .new) ∨ (o = 0x02#8 ∧ u = .u32 ∧ op = .absorb) ∨ (o = 0x03#8 ∧ u = .u32 ∧ op = .final) ∨
    (o = 0x11#8 ∧ u = .u64 ∧ op = .new) ∨ (o = 0x12#8 ∧ u = .u64 ∧ op = .absorb) ∨ (o = 0x13#8 ∧ u = .u64 ∧ op = .final) := by
  revert o u op
  have key : ∀ o : Byte, ∀ r, decodeOpcode o = some r →
      (o, r) ∈ [(0x01#8, UnitSel.u32, Operation.new), (0x02#8, .u32, .absorb), (0x03#8, .u32, .final),
        (0x11#8, .u64, .new), (0x12#8, .u64, .absorb), (0x13#8, .u64, .final)] := by
    intro o r hr
    have hall : ∀ o : Byte, (decodeOpcode o).all (fun r => decide
      ((o, r) ∈ [(0x01#8, UnitSel.u32, Operation.new), (0x02#8, .u32, .absorb), (0x03#8, .u32, .final),
        (0x11#8, .u64, .new), (0x12#8, .u64, .absorb), (0x13#8, .u64, .final)])) = true := by decide
    have := hall o
    rw [hr] at this
    simpa using this
  intro o u op h
  have := key o (u, op) h
  simp only [List.mem_cons, Prod.mk.injEq, List.not_mem_nil, or_false] at this
  exact this

/-- Format N is decoded when its four seed bytes are present (R72). -/
theorem decodeNew_frame {u : UnitSel} {rest after : List Byte} {i : Instr} (h : decodeNew u rest = .frame i after) :
    4 ≤ rest.length ∧ i = newOf u (leWord 32 (rest.take 4)) ∧ after = rest.drop 4 := by
  unfold decodeNew at h
  split at h
  · cases h
  · next hn =>
    cases h
    exact ⟨by omega, rfl, rfl⟩

/-- The default length field has eight bytes (R73). -/
@[simp] theorem lenBytes_default : Machine.defaultConfig.lenBytes = 8 := rfl

/-- The bytes of a length field read as a number that fits it. -/
theorem le_take_lt (m : Nat) (bs : List Byte) (h : m ≤ bs.length) : le (bs.take m) < 2 ^ (8 * m) := by
  have hb := le_lt (bs.take m)
  rw [List.length_take, Nat.min_eq_left h] at hb
  rwa [Nat.pow_mul]

/-- Format A is decoded when its length bytes and its n data bytes are present (R73). -/
theorem decodeAbsorb_frame {g : Config} {u : UnitSel} {rest after : List Byte} {i : Instr}
    (h : decodeAbsorb g u rest = .frame i after) :
    g.lenBytes ≤ rest.length ∧ le (rest.take g.lenBytes) ≤ (rest.drop g.lenBytes).length ∧
      i = absorbOf u ((rest.drop g.lenBytes).take (le (rest.take g.lenBytes))) ∧
      after = (rest.drop g.lenBytes).drop (le (rest.take g.lenBytes)) := by
  unfold decodeAbsorb decodeData at h
  split at h
  · cases h
  · next hn =>
    split at h
    · cases h
    · next hd =>
      cases h
      exact ⟨by omega, by omega, rfl, rfl⟩

end Sys2Proof
end

