-- ==== Sys2Proof/Laws/Lanes.lean ====
section
/-! SUPPORT. Reading a lane after writing one. -/

namespace Sys2Proof

@[simp] theorem Quad.get_set_same {α : Type} (q : Quad α) (i : Lane4) (v : α) : (q.set i v).get i = v := by
  cases i <;> rfl

theorem Quad.get_set_other {α : Type} (q : Quad α) (i j : Lane4) (v : α) (h : j ≠ i) : (q.set i v).get j = q.get j := by
  cases i <;> cases j <;> first | rfl | exact absurd rfl h

@[simp] theorem Quad.set_get_same {α : Type} (q : Quad α) (i : Lane4) : q.set i (q.get i) = q := by
  cases i <;> rfl

@[simp] theorem Duo.get_set_same {α : Type} (q : Duo α) (i : Lane2) (v : α) : (q.set i v).get i = v := by
  cases i <;> rfl

theorem Duo.get_set_other {α : Type} (q : Duo α) (i j : Lane2) (v : α) (h : j ≠ i) : (q.set i v).get j = q.get j := by
  cases i <;> cases j <;> first | rfl | exact absurd rfl h

@[simp] theorem Duo.set_get_same {α : Type} (q : Duo α) (i : Lane2) : q.set i (q.get i) = q := by
  cases i <;> rfl

/-- No lane is its own successor. -/
theorem Lane4.succ_ne (i : Lane4) : i.succ ≠ i := by cases i <;> decide

/-- No lane is its own successor. -/
theorem Lane2.succ_ne (i : Lane2) : i.succ ≠ i := by cases i <;> decide

end Sys2Proof
end

