-- ==== Sys2Proof/Laws/Operands.lean ====
section
/-! SUPPORT. Reading a data field that continues another, and placing one byte in a word. -/

namespace Sys2Proof.Machine

/-- Rotating 0 gives 0. -/
@[simp] theorem rotl_zero (w r : Nat) : rotl r (0#w) = 0#w := by simp [rotl]

/-- A read inside the first of two fields reads that field. -/
theorem dataRead_append_left (w : Nat) (a b : List Byte) (i m : Nat) (h : i + m ≤ a.length) :
    dataRead w (a ++ b) i m = dataRead w a i m := by
  unfold dataRead
  rw [List.drop_append_of_le_length (by omega), List.take_append_of_le_length (by simp; omega)]

/-- A read past the first of two fields reads the second. -/
theorem dataRead_append_right (w : Nat) (a b : List Byte) (i m : Nat) :
    dataRead w (a ++ b) (a.length + i) m = dataRead w b i m := by
  unfold dataRead
  simp [← List.drop_drop]

/-- A byte past the first of two fields is a byte of the second. -/
theorem dataByte_append_right (a b : List Byte) (i : Nat) : dataByte (a ++ b) (a.length + i) = dataByte b i := by
  simp [dataByte, List.getD, List.getElem?_append_right]

/-- XORing a byte in at place m of a word of n bytes changes the byte at place m and no other. -/
theorem extract_xor_shifted_byte (n : Nat) (x : BitVec (8 * n)) (b : Byte) (m p : Nat) (hm : m < n) (hp : p < n) :
    (x ^^^ (b.setWidth (8 * n) <<< (8 * m))).extractLsb' (8 * p) 8 =
      if p = m then x.extractLsb' (8 * p) 8 ^^^ b else x.extractLsb' (8 * p) 8 := by
  apply BitVec.eq_of_getLsbD_eq
  intro i hi
  have h1 : 8 * p + i < 8 * n := by omega
  by_cases h : p = m
  · subst h
    simp [hi, h1]
  · rw [if_neg h]
    simp [hi, h1]
    by_cases h3 : 8 * p + i < 8 * m
    · simp [h3]
    · have hz : b.getLsbD (8 * p + i - 8 * m) = false := by
        apply BitVec.getLsbD_of_ge
        omega
      simp [hz]

end Sys2Proof.Machine
end

