-- ==== Sys2Proof/Laws/State.lean ====
section
/-! SUPPORT. One lemma per field of State per update: what each update leaves in each field. -/

namespace Sys2Proof.Machine

@[simp] theorem State.setU32_config (s : State) (v : HashUnit (Quad Word32)) : (s.setU32 v).config = s.config := rfl
@[simp] theorem State.setU32_u32 (s : State) (v : HashUnit (Quad Word32)) : (s.setU32 v).u32 = v := rfl
@[simp] theorem State.setU32_u64 (s : State) (v : HashUnit (Quad Word32)) : (s.setU32 v).u64 = s.u64 := rfl
@[simp] theorem State.setU32_faultReg (s : State) (v : HashUnit (Quad Word32)) : (s.setU32 v).faultReg = s.faultReg := rfl
@[simp] theorem State.setU32_cmdIdx (s : State) (v : HashUnit (Quad Word32)) : (s.setU32 v).cmdIdx = s.cmdIdx := rfl
@[simp] theorem State.setU32_stream (s : State) (v : HashUnit (Quad Word32)) : (s.setU32 v).stream = s.stream := rfl
@[simp] theorem State.setU32_streamPos (s : State) (v : HashUnit (Quad Word32)) : (s.setU32 v).streamPos = s.streamPos := rfl
@[simp] theorem State.setU32_response (s : State) (v : HashUnit (Quad Word32)) : (s.setU32 v).response = s.response := rfl

@[simp] theorem State.setU64_config (s : State) (v : HashUnit (Duo Word64)) : (s.setU64 v).config = s.config := rfl
@[simp] theorem State.setU64_u32 (s : State) (v : HashUnit (Duo Word64)) : (s.setU64 v).u32 = s.u32 := rfl
@[simp] theorem State.setU64_u64 (s : State) (v : HashUnit (Duo Word64)) : (s.setU64 v).u64 = v := rfl
@[simp] theorem State.setU64_faultReg (s : State) (v : HashUnit (Duo Word64)) : (s.setU64 v).faultReg = s.faultReg := rfl
@[simp] theorem State.setU64_cmdIdx (s : State) (v : HashUnit (Duo Word64)) : (s.setU64 v).cmdIdx = s.cmdIdx := rfl
@[simp] theorem State.setU64_stream (s : State) (v : HashUnit (Duo Word64)) : (s.setU64 v).stream = s.stream := rfl
@[simp] theorem State.setU64_streamPos (s : State) (v : HashUnit (Duo Word64)) : (s.setU64 v).streamPos = s.streamPos := rfl
@[simp] theorem State.setU64_response (s : State) (v : HashUnit (Duo Word64)) : (s.setU64 v).response = s.response := rfl

@[simp] theorem State.complete_config (s : State) : s.complete.config = s.config := rfl
@[simp] theorem State.complete_u32 (s : State) : s.complete.u32 = s.u32 := rfl
@[simp] theorem State.complete_u64 (s : State) : s.complete.u64 = s.u64 := rfl
@[simp] theorem State.complete_faultReg (s : State) : s.complete.faultReg = s.faultReg := rfl
@[simp] theorem State.complete_cmdIdx (s : State) : s.complete.cmdIdx = s.cmdIdx + 1 := rfl
@[simp] theorem State.complete_stream (s : State) : s.complete.stream = s.stream := rfl
@[simp] theorem State.complete_streamPos (s : State) : s.complete.streamPos = s.streamPos := rfl
@[simp] theorem State.complete_response (s : State) : s.complete.response = s.response := rfl

@[simp] theorem State.emit_config (s : State) (bytes : List Byte) : (s.emit bytes).config = s.config := rfl
@[simp] theorem State.emit_u32 (s : State) (bytes : List Byte) : (s.emit bytes).u32 = s.u32 := rfl
@[simp] theorem State.emit_u64 (s : State) (bytes : List Byte) : (s.emit bytes).u64 = s.u64 := rfl
@[simp] theorem State.emit_faultReg (s : State) (bytes : List Byte) : (s.emit bytes).faultReg = s.faultReg := rfl
@[simp] theorem State.emit_cmdIdx (s : State) (bytes : List Byte) : (s.emit bytes).cmdIdx = s.cmdIdx := rfl
@[simp] theorem State.emit_stream (s : State) (bytes : List Byte) : (s.emit bytes).stream = s.stream := rfl
@[simp] theorem State.emit_streamPos (s : State) (bytes : List Byte) : (s.emit bytes).streamPos = s.streamPos := rfl
@[simp] theorem State.emit_response (s : State) (bytes : List Byte) : (s.emit bytes).response = s.response ++ bytes := rfl

@[simp] theorem State.raiseFault_config (s : State) (c : Cause) (u : UnitSel) : (s.raiseFault c u).config = s.config := rfl
@[simp] theorem State.raiseFault_u32 (s : State) (c : Cause) (u : UnitSel) : (s.raiseFault c u).u32 = s.u32 := rfl
@[simp] theorem State.raiseFault_u64 (s : State) (c : Cause) (u : UnitSel) : (s.raiseFault c u).u64 = s.u64 := rfl
@[simp] theorem State.raiseFault_faultReg (s : State) (c : Cause) (u : UnitSel) : (s.raiseFault c u).faultReg = { halted := true, cause := c, funit := u } := rfl
@[simp] theorem State.raiseFault_cmdIdx (s : State) (c : Cause) (u : UnitSel) : (s.raiseFault c u).cmdIdx = s.cmdIdx := rfl
@[simp] theorem State.raiseFault_stream (s : State) (c : Cause) (u : UnitSel) : (s.raiseFault c u).stream = s.stream := rfl
@[simp] theorem State.raiseFault_streamPos (s : State) (c : Cause) (u : UnitSel) : (s.raiseFault c u).streamPos = s.streamPos := rfl
@[simp] theorem State.raiseFault_response (s : State) (c : Cause) (u : UnitSel) : (s.raiseFault c u).response = s.response := rfl

@[simp] theorem State.consume_config (s : State) (m : Nat) : (s.consume m).config = s.config := rfl
@[simp] theorem State.consume_u32 (s : State) (m : Nat) : (s.consume m).u32 = s.u32 := rfl
@[simp] theorem State.consume_u64 (s : State) (m : Nat) : (s.consume m).u64 = s.u64 := rfl
@[simp] theorem State.consume_faultReg (s : State) (m : Nat) : (s.consume m).faultReg = s.faultReg := rfl
@[simp] theorem State.consume_cmdIdx (s : State) (m : Nat) : (s.consume m).cmdIdx = s.cmdIdx := rfl
@[simp] theorem State.consume_stream (s : State) (m : Nat) : (s.consume m).stream = s.stream.drop m := rfl
@[simp] theorem State.consume_streamPos (s : State) (m : Nat) : (s.consume m).streamPos = s.streamPos + m := rfl
@[simp] theorem State.consume_response (s : State) (m : Nat) : (s.consume m).response = s.response := rfl

@[simp] theorem State.send_config (s : State) (bytes : List Byte) : (s.send bytes).config = s.config := rfl
@[simp] theorem State.send_u32 (s : State) (bytes : List Byte) : (s.send bytes).u32 = s.u32 := rfl
@[simp] theorem State.send_u64 (s : State) (bytes : List Byte) : (s.send bytes).u64 = s.u64 := rfl
@[simp] theorem State.send_faultReg (s : State) (bytes : List Byte) : (s.send bytes).faultReg = s.faultReg := rfl
@[simp] theorem State.send_cmdIdx (s : State) (bytes : List Byte) : (s.send bytes).cmdIdx = s.cmdIdx := rfl
@[simp] theorem State.send_stream (s : State) (bytes : List Byte) : (s.send bytes).stream = s.stream ++ bytes := rfl
@[simp] theorem State.send_streamPos (s : State) (bytes : List Byte) : (s.send bytes).streamPos = s.streamPos := rfl
@[simp] theorem State.send_response (s : State) (bytes : List Byte) : (s.send bytes).response = s.response := rfl

@[simp] theorem State.resetWith_config (g : Config) : (State.resetWith g).config = g := rfl
@[simp] theorem State.resetWith_faultReg (g : Config) : (State.resetWith g).faultReg = { halted := false, cause := .none, funit := .u32 } := rfl
@[simp] theorem State.resetWith_life32 (g : Config) : (State.resetWith g).u32.life = .uninit := rfl
@[simp] theorem State.resetWith_life64 (g : Config) : (State.resetWith g).u64.life = .uninit := rfl
@[simp] theorem State.resetWith_cmdIdx (g : Config) : (State.resetWith g).cmdIdx = 0 := rfl
@[simp] theorem State.resetWith_stream (g : Config) : (State.resetWith g).stream = [] := rfl
@[simp] theorem State.resetWith_streamPos (g : Config) : (State.resetWith g).streamPos = 0 := rfl
@[simp] theorem State.resetWith_response (g : Config) : (State.resetWith g).response = [] := rfl

/-- Two states with the same fields are the same state. -/
theorem State.ext_fields {s t : State} (h1 : s.config = t.config) (h2 : s.u32 = t.u32) (h3 : s.u64 = t.u64)
    (h4 : s.faultReg = t.faultReg) (h5 : s.cmdIdx = t.cmdIdx) (h6 : s.stream = t.stream) (h7 : s.streamPos = t.streamPos)
    (h8 : s.response = t.response) : s = t := by
  cases s
  cases t
  simp_all

end Sys2Proof.Machine
end

