-- ==== Sys2Proof/Laws/Ops.lean ====
section
/-! SUPPORT. One lemma per shared operation that says all it can do, and from them what each command and each step can answer. -/

namespace Sys2Proof.Machine

open Sys2Proof.Safety

/-- The acceptance check: the command acts exactly while the block is not halted. -/
theorem accept_running {s : State} (h : Running s) (t : State) : accept s t = .next t := by
  have hf : s.faultReg.halted = false := h
  simp [accept, hf]

/-- A halted block accepts nothing. -/
theorem accept_halted {s : State} (h : s.faultReg.halted = true) (t : State) : accept s t = .fault .halted := by
  simp [accept, h]

/-- What an answer of `accept` says. -/
theorem accept_next {s t u : State} (h : accept s t = .next u) : Running s ∧ u = t := by
  unfold accept at h
  split at h
  · cases h
  · next hn =>
    cases h
    exact ⟨by simpa [Running] using hn, rfl⟩

/-- A guarded command faults with its cause or completes. -/
theorem guarded_cases (check : Option Cause) (u : UnitSel) (s done : State) :
    (∃ c, check = some c ∧ guarded check u s done = s.raiseFault c u) ∨ (check = none ∧ guarded check u s done = done) := by
  cases check with
  | none => exact .inr ⟨rfl, rfl⟩
  | some c => exact .inl ⟨c, rfl, rfl⟩

/-- The causes an ABSORB's checks give, and when they give none. -/
theorem absorbCheck_cases {L : Type} (g : Config) (v : HashUnit L) (n : Nat) :
    (v.life = .uninit ∧ absorbCheck g v n = some .notInitialised) ∨
    (v.life = .finalized ∧ absorbCheck g v n = some .absorbAfterFinal) ∨
    (v.life = .active ∧ 2 ^ g.countWidth - 1 < v.count + n ∧ absorbCheck g v n = some .countOverflow) ∨
    (v.life = .active ∧ v.count + n ≤ 2 ^ g.countWidth - 1 ∧ absorbCheck g v n = none) := by
  unfold absorbCheck countOverflows
  cases hl : v.life with
  | uninit => simp
  | finalized => simp
  | active =>
    by_cases ho : 2 ^ g.countWidth - 1 < v.count + n
    · simp [ho]
    · have hle : v.count + n ≤ 2 ^ g.countWidth - 1 := Nat.le_of_not_lt ho
      simp [ho, hle]

/-- The causes a FINAL's checks give, and when they give none. -/
theorem finalCheck_cases {L : Type} (v : HashUnit L) :
    (v.life = .uninit ∧ finalCheck v = some .notInitialised) ∨ (v.life = .finalized ∧ finalCheck v = some .doubleFinal) ∨
    (v.life = .active ∧ finalCheck v = none) := by
  unfold finalCheck
  cases hl : v.life <;> simp

/-- What a completed command leaves, command by command (R104, R105, R134, R135, R169, R170). -/
def completed (i : Instr) (s : State) : State :=
  match i with
  | .new32 seed => (s.setU32 (newUnit32 seed)).complete
  | .absorb32 data => (s.setU32 (absorbUnit32 s.config data s.u32)).complete
  | .final32 => ((s.setU32 (finalUnit32 s.config s.u32)).emit (digest32 (finalUnit32 s.config s.u32).lanes)).complete
  | .new64 seed => (s.setU64 (newUnit64 seed)).complete
  | .absorb64 data => (s.setU64 (absorbUnit64 s.config data s.u64)).complete
  | .final64 => ((s.setU64 (finalUnit64 s.config s.u64)).emit (digest64 (finalUnit64 s.config s.u64).lanes)).complete

/-- The check a command makes before any write (60_exceptions.md R202). -/
def checkOf (i : Instr) (s : State) : Option Cause :=
  match i with
  | .new32 _ => none
  | .absorb32 data => absorbCheck s.config s.u32 data.length
  | .final32 => finalCheck s.u32
  | .new64 _ => none
  | .absorb64 data => absorbCheck s.config s.u64 data.length
  | .final64 => finalCheck s.u64

/-- Every command is accepted, checked, and either faults or completes: the shape all six share. -/
theorem exec_eq_guarded (i : Instr) (s : State) :
    exec i s = accept s (guarded (checkOf i s) i.unit s (completed i s)) := by
  cases i <;> rfl

/-- No command completes with a check that gave a cause, and no check gives the code 0 or ILLEGAL_COMMAND. -/
theorem checkOf_cause {i : Instr} {s : State} {c : Cause} (h : checkOf i s = some c) : c ≠ .none ∧ c ≠ .illegalCommand := by
  cases i with
  | new32 seed => simp [checkOf] at h
  | new64 seed => simp [checkOf] at h
  | absorb32 data =>
    rcases absorbCheck_cases s.config s.u32 data.length with ⟨-, e⟩ | ⟨-, e⟩ | ⟨-, -, e⟩ | ⟨-, -, e⟩ <;>
      · simp only [checkOf, e] at h
        cases h <;> simp
  | absorb64 data =>
    rcases absorbCheck_cases s.config s.u64 data.length with ⟨-, e⟩ | ⟨-, e⟩ | ⟨-, -, e⟩ | ⟨-, -, e⟩ <;>
      · simp only [checkOf, e] at h
        cases h <;> simp
  | final32 =>
    rcases finalCheck_cases s.u32 with ⟨-, e⟩ | ⟨-, e⟩ | ⟨-, e⟩ <;>
      · simp only [checkOf, e] at h
        cases h <;> simp
  | final64 =>
    rcases finalCheck_cases s.u64 with ⟨-, e⟩ | ⟨-, e⟩ | ⟨-, e⟩ <;>
      · simp only [checkOf, e] at h
        cases h <;> simp

/-- What completing leaves as it was: the parameters, the fault record and the command stream. -/
@[simp] theorem completed_config (i : Instr) (s : State) : (completed i s).config = s.config := by cases i <;> rfl
@[simp] theorem completed_faultReg (i : Instr) (s : State) : (completed i s).faultReg = s.faultReg := by cases i <;> rfl
@[simp] theorem completed_stream (i : Instr) (s : State) : (completed i s).stream = s.stream := by cases i <;> rfl
@[simp] theorem completed_streamPos (i : Instr) (s : State) : (completed i s).streamPos = s.streamPos := by cases i <;> rfl
@[simp] theorem completed_cmdIdx (i : Instr) (s : State) : (completed i s).cmdIdx = s.cmdIdx + 1 := by cases i <;> rfl

/-- All a command can answer: it faults with the cause of its check, and nothing but the fault record changes; or its check gives no cause
and it completes. -/
theorem exec_next_cases {i : Instr} {s t : State} (h : exec i s = .next t) :
    Running s ∧ ((∃ c, checkOf i s = some c ∧ t = s.raiseFault c i.unit) ∨ (checkOf i s = none ∧ t = completed i s)) := by
  rw [exec_eq_guarded] at h
  obtain ⟨hr, rfl⟩ := accept_next h
  refine ⟨hr, ?_⟩
  rcases guarded_cases (checkOf i s) i.unit s (completed i s) with ⟨c, hc, e⟩ | ⟨hc, e⟩
  · exact .inl ⟨c, hc, e⟩
  · exact .inr ⟨hc, e⟩

/-- A command of a block that is not halted always answers a next state. -/
theorem exec_running {i : Instr} {s : State} (h : Running s) :
    exec i s = .next (guarded (checkOf i s) i.unit s (completed i s)) := by
  rw [exec_eq_guarded, accept_running h]

/-- All `retire` can do: it keeps an answer that is no next state, and consumes the frame of one that is. -/
theorem retire_next {length : Nat} {r : Result} {t : State} (h : retire length r = .next t) :
    ∃ u, r = .next u ∧ t = u.consume (consumedBytes length u) := by
  cases r with
  | next u =>
    cases h
    exact ⟨u, rfl, rfl⟩
  | fault e => cases h
  | refused e => cases h

/-- All a step can answer as a next state: the fault entry of an illegal opcode byte, or the decoded command's next state with its frame
consumed. -/
theorem step_next_cases {s t : State} (h : step s = .next t) :
    Running s ∧
      ((∃ o, s.fetch = .illegal o ∧ t = s.illegalCommand.consume 1) ∨
       (∃ i rest u, s.fetch = .frame i rest ∧ exec i s = .next u ∧ t = u.consume (consumedBytes (frameLength s.config i) u))) := by
  unfold step at h
  split at h
  · cases h
  · next hn =>
    refine ⟨by simpa [Running] using hn, ?_⟩
    split at h
    · cases h
    · cases h
    · next o ho =>
      left
      obtain ⟨u, hu, rfl⟩ := retire_next h
      cases hu
      exact ⟨o, ho, rfl⟩
    · next i rest hf =>
      right
      obtain ⟨u, hu, ht⟩ := retire_next h
      exact ⟨i, rest, u, hf, hu, ht⟩

end Sys2Proof.Machine
end

