-- ==== Sys2Proof/Laws/PerInstr.lean ====
section
/-! SUPPORT. The length and first byte of every command's frame, command by command (30_encoding.md R75, R76). -/

namespace Sys2Proof.Laws.FrameShape

/-- Whatever the width of the length field, the encoder gives the command's frame the length of R75, and begins it with an opcode byte that names the command's unit and
operation. -/
def Statement (i : Instr) : Prop :=
  ∀ g : Config, (encode g i).length = frameLength g i ∧
    ∃ o rest, encode g i = o :: rest ∧ decodeOpcode o = some (i.unit, i.operation)

theorem new32 (seed : Word32) : Statement (.new32 seed) :=
  fun g => ⟨by simp [encode, frameLength, Instr.operation], _, _, rfl, by
    simp only [Instr.unit, Instr.operation]
    decide⟩

theorem absorb32 (data : List Byte) : Statement (.absorb32 data) :=
  fun g => ⟨by simp [encode, encodeData, frameLength, Instr.operation, Instr.data]; omega, _, _, rfl, by
    simp only [Instr.unit, Instr.operation]
    decide⟩

theorem final32 : Statement .final32 := fun _ => ⟨rfl, _, _, rfl, by decide⟩

theorem new64 (seed : Word32) : Statement (.new64 seed) :=
  fun g => ⟨by simp [encode, frameLength, Instr.operation], _, _, rfl, by
    simp only [Instr.unit, Instr.operation]
    decide⟩

theorem absorb64 (data : List Byte) : Statement (.absorb64 data) :=
  fun g => ⟨by simp [encode, encodeData, frameLength, Instr.operation, Instr.data]; omega, _, _, rfl, by
    simp only [Instr.unit, Instr.operation]
    decide⟩

theorem final64 : Statement .final64 := fun _ => ⟨rfl, _, _, rfl, by decide⟩

end Sys2Proof.Laws.FrameShape
end

