-- ==== Sys2Proof/Tests/Slice0.lean ====
section
/-! SUPPORT. The model's own tests: expected values come from the spec (the place is named), and one named witness for the hypotheses of
each statement in Certificates/Slice0/Obligations.lean. -/

namespace Sys2Proof.Tests

open Sys2Proof.Machine Sys2Proof.Safety

/-! ### Helpers -/

/-- The next state an answer gives. -/
def nextOf (r : Result) : Option State :=
  match r with
  | .next t => some t
  | .fault _ => none
  | .refused _ => none

/-- The fault an answer gives. -/
def faultOf (r : Result) : Option Fault :=
  match r with
  | .next _ => none
  | .fault e => some e
  | .refused _ => none

/-- U32 with every lane 0. -/
def zero32 (life : Life) (count : Nat) : HashUnit (Quad Word32) := { lanes := ⟨0, 0, 0, 0⟩, count := count, life := life }

/-- U64 with both lanes 0. -/
def zero64 (life : Life) (count : Nat) : HashUnit (Duo Word64) := { lanes := ⟨0, 0⟩, count := count, life := life }

/-- A block with this COUNT_WIDTH and these units that has received these bytes. -/
def small (width : Nat) (a : HashUnit (Quad Word32)) (b : HashUnit (Duo Word64)) (bytes : List Byte) : State where
  config := { defaultConfig with countWidth := width }
  u32 := a
  u64 := b
  faultReg := { halted := false, cause := .none, funit := .u32 }
  cmdIdx := 0
  stream := bytes
  streamPos := 0
  response := []

/-- A block whose units are both in this life, with count 0. -/
def both (life : Life) (bytes : List Byte) : State := small 64 (zero32 life 0) (zero64 life 0) bytes

/-- The same block, halted by a NOT_INITIALISED of U64. -/
def haltedBlock : State := (both .uninit [0x01, 0, 0, 0, 0]).raiseFault .notInitialised .u64

/-- The bytes 00, 01, ..., n-1. -/
def counting (n : Nat) : List Byte := (List.range n).map (BitVec.ofNat 8)

/-! ### Well-formedness -/

theorem test_wellFormed_ordinary :
    [Instr.new32 5, .absorb32 [], .absorb32 [1, 2], .final32, .new64 5, .absorb64 [1], .final64].all (Instr.wellFormed defaultConfig) = true := by decide

/-- A data field of 2^64 bytes has no length field (R73): the check refuses it for both units. -/
theorem test_wellFormed_refuses_long_data (data : List Byte) (h : data.length = 2 ^ 64) :
    (Instr.absorb32 data).wellFormed defaultConfig = false ∧ (Instr.absorb64 data).wellFormed defaultConfig = false := by
  have e : ¬ data.length < 2 ^ (8 * defaultConfig.lenBytes) := by
    rw [h]
    decide
  exact ⟨decide_eq_false e, decide_eq_false e⟩

/-- The longest data field that fits, and the term the check refuses. -/
theorem test_wellFormed_boundary :
    (Instr.absorb32 (List.replicate (2 ^ 64) 0#8)).wellFormed defaultConfig = false ∧
      (Instr.absorb32 (List.replicate (2 ^ 64 - 1) 0#8)).wellFormed defaultConfig = true := by
  constructor
  · exact (test_wellFormed_refuses_long_data _ List.length_replicate).1
  · simp only [Instr.wellFormed, lengthFits, List.length_replicate]
    decide

/-! ### Decoding: words written out from the encoding tables (30_encoding.md R71 to R74, R81) -/

/-- 000 0 00 01, seed bytes 78 56 34 12 (R81). -/
theorem test_decode_new32 :
    decode defaultConfig [0b00000001, 0x78, 0x56, 0x34, 0x12, 0xff] = .frame (.new32 0x12345678) [0xff] := by decide

/-- 000 0 00 10, n = 3 in eight bytes, "abc" (R81). -/
theorem test_decode_absorb32 :
    decode defaultConfig [0b00000010, 3, 0, 0, 0, 0, 0, 0, 0, 0x61, 0x62, 0x63] = .frame (.absorb32 [0x61, 0x62, 0x63]) [] := by decide

/-- 000 0 00 11 (R81). -/
theorem test_decode_final32 : decode defaultConfig [0b00000011, 0x01] = .frame .final32 [0x01] := by decide

/-- 000 1 00 01, seed 1 (R81). -/
theorem test_decode_new64 : decode defaultConfig [0b00010001, 1, 0, 0, 0] = .frame (.new64 1) [] := by decide

/-- 000 1 00 10, n = 0 (R81). -/
theorem test_decode_absorb64 : decode defaultConfig [0b00010010, 0, 0, 0, 0, 0, 0, 0, 0, 7] = .frame (.absorb64 []) [7] := by decide

/-- 000 1 00 11 (R81). -/
theorem test_decode_final64 : decode defaultConfig [0b00010011] = .frame .final64 [] := by decide

/-- The 250 other bytes are illegal (R76). -/
theorem test_decode_illegal :
    ∀ o : Byte, o ∉ [0x01#8, 0x02#8, 0x03#8, 0x11#8, 0x12#8, 0x13#8] → decodeOpcode o = none := by decide

/-- Program P7 of 95_test_vectors.md: n = 4 declared, 2 bytes sent. -/
theorem test_decode_incomplete : decode defaultConfig [0x02, 4, 0, 0, 0, 0, 0, 0, 0, 0x61, 0x62] = .incomplete := by decide

/-- The length field is little-endian over all eight bytes (R73). -/
theorem test_decode_length_order : decode defaultConfig [0x12, 0, 1, 0, 0, 0, 0, 0, 0] = .incomplete := by decide

/-- With a `LENW` of 16 (00_scope.md R7) the length field is two bytes, and so the data field begins at frame offset 3. -/
theorem test_decode_narrow_length :
    decode { defaultConfig with lenWidth := 16 } [0x02, 1, 0, 0x61, 0x03] = .frame (.absorb32 [0x61]) [0x03] := by decide

theorem test_encode_worked :
    encode defaultConfig (.new32 0x12345678) = [0x01, 0x78, 0x56, 0x34, 0x12] ∧
      encode defaultConfig (.absorb64 [9]) = [0x12, 1, 0, 0, 0, 0, 0, 0, 0, 9] ∧ encode defaultConfig .final64 = [0x13] := by decide

/-- The rows of spec/opcode_table.json as the table gives them: 8 bits each. -/
theorem test_decodeTableWord :
    [0x01, 0x02, 0x03, 0x11, 0x12, 0x13].map (decodeTableWord 8) =
      [some (.new32 0), some (.absorb32 []), some .final32, some (.new64 0), some (.absorb64 []), some .final64] := by decide

/-- NEW64 with its seed bytes as the table's later bytes. -/
theorem test_decodeTableWord_seed : decodeTableWord 40 0x1234567811 = some (.new64 0x12345678) := by decide

/-! ### Notation (95_test_vectors.md 2.1) -/

theorem test_rotl :
    rotl 15 0x12345678#32 = 0x2b3c091a#32 ∧ rotl 1 0x80000001#32 = 3#32 ∧
      rotl 33 0x0123456789abcdef#64 = 0x13579bde02468acf#64 := by decide

theorem test_le :
    leWord 32 [0x61, 0x62, 0x63] = 0x00636261#32 ∧ leWord 64 (counting 8) = 0x0706050403020100#64 := by decide

/-! ### Mixing (95_test_vectors.md 2.2 to 2.4) -/

theorem test_kmix32 :
    [Lane4.one, .two, .three, .four].map (kmix32 defaultConfig · 1) = [0x9378f1b5, 0x04620f86, 0xa2437f92, 0x62af7ffa] := by decide

theorem test_kmix64 :
    [Lane2.one, .two].map (kmix64 defaultConfig · 1) = [0x34e09d0b6bdefe38, 0x4e26f5539bb7c37e] := by decide

/-- The block with seed 0x9747b28c: lane 4 adds the new lane 1 (R102, R234). -/
theorem test_block32 :
    block32 defaultConfig (counting 16) (Quad.fill 0x9747b28c) 0 = ⟨0xfe9468ee, 0x132e5ac3, 0x1c105f61, 0x1f8b82e1⟩ := by decide

theorem test_block64 :
    block64 defaultConfig (counting 16) (Duo.fill 0) 0 = ⟨0xdcac505ea5c458df, 0x72927c4be244042d⟩ := by decide

/-! ### Finalization (95_test_vectors.md 2.8; 43_finalization.md R169) -/

theorem test_fmix32 : [1, 2, 0xdeadbeef].map (fmix32 defaultConfig) = [0x514e28b7, 0x30f4c306, 0x0de5c6a9] := by decide

theorem test_fmix64 : fmix64 defaultConfig 0x0123456789abcdef = 0x87cbfbfe89022cea := by decide

/-- The stages of R169's example. -/
theorem test_final32_stages :
    xorLen32 3 ⟨0x74e635d5, 0, 0, 0⟩ = ⟨0x74e635d6, 3, 3, 3⟩ ∧
      crossAdd32 ⟨0x74e635d6, 3, 3, 3⟩ = ⟨0x74e635df, 0x74e635e2, 0x74e635e2, 0x74e635e2⟩ ∧
      finalLanes32 defaultConfig 3 ⟨0x74e635d5, 0, 0, 0⟩ = ⟨0x75cdc6d1, 0xa2b006a5, 0xa2b006a5, 0xa2b006a5⟩ := by decide

/-- A count of 2^32 + 3: only its low 32 bits enter U32 (R161), all of it enters U64 (R162). -/
theorem test_xorLen_above_32_bits :
    digest32 (finalLanes32 defaultConfig (2 ^ 32 + 3) (Quad.fill 0)) = encLe 16 0xacf40e87acf40e87acf40e87e0d93642 ∧
      digest64 (finalLanes64 defaultConfig (2 ^ 32 + 3) (Duo.fill 0)) = encLe 16 0x05cd9dd1790c72a7745cf03effdf6aff := by decide

/-! ### Commands, one step each -/

/-- NEW32 on a FINALIZED unit starts over, and clears nothing of U64 (R104). -/
theorem test_step_new32 :
    (nextOf (step (both .finalized [0x01, 0x78, 0x56, 0x34, 0x12]))).map (fun t => (t.u32, t.u64.life, t.status, t.cmdIdx, t.stream)) =
      some (⟨⟨0x12345678, 0x12345678, 0x12345678, 0x12345678⟩, 0, .active⟩, .finalized, 0x00000009, 1, []) := by decide

/-- The high half of each lane is 0 after NEW64 (R134). -/
theorem test_step_new64 :
    (nextOf (step (both .uninit [0x11, 0xff, 0xff, 0xff, 0xff]))).map (fun t => (t.u64, t.status)) =
      some (⟨⟨0x00000000ffffffff, 0x00000000ffffffff⟩, 0, .active⟩, 0x00000004) := by decide

/-- "abc" on a fresh unit: lane 1 alone gets the primary mix (R105). -/
theorem test_exec_absorb32_tail :
    (nextOf (exec (.absorb32 [0x61, 0x62, 0x63]) (both .active []))).map (·.u32) = some ⟨⟨0x74e635d5, 0, 0, 0⟩, 3, .active⟩ := by decide

/-- One block and a tail of 15 bytes (95_test_vectors.md 2.6, n = 31). -/
theorem test_exec_absorb32_block_and_tail :
    (nextOf (exec (.absorb32 (counting 31)) (both .active []))).map (·.u32) =
      some ⟨⟨0x8050fa6a, 0x3262376a, 0xb159dbf2, 0xe10283d1⟩, 31, .active⟩ := by decide

/-- Nine bytes touch both lanes (95_test_vectors.md 2.7, n = 9). -/
theorem test_exec_absorb64_tail :
    (nextOf (exec (.absorb64 (counting 9)) (both .active []))).map (·.u64) =
      some ⟨⟨0xdf62d7cbeab5358e, 0x3bb5526b0042c39a⟩, 9, .active⟩ := by decide

/-- One block and a tail of one byte (95_test_vectors.md 2.7, n = 17). -/
theorem test_exec_absorb64_block_and_tail :
    (nextOf (exec (.absorb64 (counting 17)) (both .active []))).map (·.u64) =
      some ⟨⟨0xc40cbc8d5dd827a7, 0x72927c4be244042d⟩, 17, .active⟩ := by decide

/-- The digest of "abc" (R169), the lanes written back (R171). -/
theorem test_exec_final32 :
    (nextOf (exec .final32 (small 64 ⟨⟨0x74e635d5, 0, 0, 0⟩, 3, .active⟩ (zero64 .uninit 0) []))).map
        (fun t => (t.response, t.u32.lanes.h1, t.status)) =
      some ([0xd1, 0xc6, 0xcd, 0x75, 0xa5, 0x06, 0xb0, 0xa2, 0xa5, 0x06, 0xb0, 0xa2, 0xa5, 0x06, 0xb0, 0xa2], 0x75cdc6d1, 2) := by decide

/-- The digest of "abc" (R170). -/
theorem test_exec_final64 :
    (nextOf (exec .final64 (small 64 (zero32 .uninit 0) ⟨⟨0xe6bdee0ad323de64, 0⟩, 3, .active⟩ []))).map (fun t => (t.response, t.status)) =
      some ([0x67, 0x78, 0xad, 0x3f, 0x3f, 0x3f, 0x96, 0xb4, 0x52, 0x2d, 0xca, 0x26, 0x41, 0x74, 0xa2, 0x3b], 8) := by decide

/-- A second FINAL faults: the STATUS of program P4 of 95_test_vectors.md, and the opcode byte alone is consumed. -/
theorem test_step_double_final :
    (nextOf (step (small 64 (zero32 .finalized 0) (zero64 .uninit 0) [0x03, 0x01]))).map (fun t => (t.status, t.cmdIdx, t.response, t.stream)) =
      some (0x00000412, 0, [], [0x01]) := by decide

/-- COUNT_OVERFLOW with COUNT_WIDTH 4: program P8 of 95_test_vectors.md. -/
theorem test_exec_count_overflow :
    (nextOf (exec (.absorb32 (counting 6)) (small 4 (zero32 .active 10) (zero64 .uninit 0) []))).map (fun t => (t.status, t.u32.count)) =
      some (0x00000511, 10) := by decide

/-- The count may reach 2^COUNT_WIDTH - 1 exactly: program P8's second form. -/
theorem test_exec_count_full :
    (nextOf (exec (.absorb32 (counting 5)) (small 4 (zero32 .active 10) (zero64 .uninit 0) []))).map (fun t => (t.status, t.u32.count)) =
      some (0x00000001, 15) := by decide

/-- ABSORB_AFTER_FINAL ranks above COUNT_OVERFLOW: program P9. -/
theorem test_exec_absorb_after_final :
    (nextOf (exec (.absorb32 (counting 5)) (small 4 (zero32 .finalized 15) (zero64 .uninit 0) []))).map (·.status) = some 0x00000312 := by decide

/-- An ABSORB64 before any NEW64, as the first command after reset: program P6. -/
theorem test_step_before_new :
    (nextOf (step (State.reset.withFetchWord 8 0x12))).map (fun t => (t.status, t.cmdIdx)) = some (0x00001210, 0) := by decide

/-- An illegal opcode byte: program P5. -/
theorem test_step_illegal :
    (nextOf (step (small 64 (zero32 .uninit 0) (zero64 .active 0) [0x04, 0x13]))).map (fun t => (t.status, t.cmdIdx, t.stream)) =
      some (0x00000114, 0, [0x13]) := by decide

/-- The three ways a step can be absent (R204, R206, R233). -/
theorem test_step_absent :
    faultOf (step haltedBlock) = some .halted ∧ faultOf (step (both .active [0x01, 0])) = some .incompleteFrame ∧
      faultOf (step (both .active [])) = some .endOfStream := by decide

/-- NEW32 is the first command after reset: what the host's fetch word places is what the step runs. -/
theorem test_step_first_after_reset :
    (nextOf (step (State.reset.withFetchWord 8 0x01))).map (fun t => (t.u32, t.cmdIdx, t.stream, t.streamPos)) =
      some (newUnit32 0, 1, [], 5) := by decide

/-- 10 bytes, then 6: the result differs from 16 at once (R109). -/
theorem test_unaligned_chunks_differ :
    absorbLanes32 defaultConfig ((counting 16).drop 10) (absorbLanes32 defaultConfig (counting 10) (Quad.fill 0)) =
        ⟨0x2d82fe1b, 0xa0c6f9ff, 0x1f513ee8, 0⟩ ∧
      absorbLanes32 defaultConfig (counting 16) (Quad.fill 0) = ⟨0x4da35dc9, 0xe63b85d2, 0x45e13894, 0xe3e40e30⟩ := by decide

/-! ### The assembler (30_encoding.md R79 to R81) -/

theorem test_assemble_commands :
    (assemble defaultConfig "new32 0x12345678 ; seed\nABSORB32 x\"616263\"\n\nfinal32".toList).toOption =
      some ([0x01, 0x78, 0x56, 0x34, 0x12] ++ [0x02, 3, 0, 0, 0, 0, 0, 0, 0, 0x61, 0x62, 0x63] ++ [0x03]) := by decide

theorem test_assemble_hash64 :
    (assemble defaultConfig "hash64 1, \"\"".toList).toOption = some [0x11, 1, 0, 0, 0, 0x12, 0, 0, 0, 0, 0, 0, 0, 0, 0x13] := by decide

/-- A seed of 2^32, and a step of 0 (R79, R80). -/
theorem test_assemble_errors :
    lineCommands "new64 4294967296".toList = .error .seedRange ∧ lineCommands "absorbs32 0, x\"00\"".toList = .error .stepZero := by decide

/-- The model's choices of log entry 11: `<step>` in hex, no white space before a quoted operand, and a data field that is too long for its
length field. -/
theorem test_assemble_choices :
    lineCommands "absorbs32 0x2,\"abc\"".toList = .ok [.absorb32 [0x61, 0x62], .absorb32 [0x63]] ∧
      lineCommands "absorb64\"a\"".toList = .ok [.absorb64 [0x61]] ∧
      assemble { defaultConfig with lenWidth := 0 } "absorb32 \"a\"".toList = .error .dataLength := by decide

/-- Chunks of step, step, ... and L mod step bytes (R80), in data order. -/
theorem test_chunks : chunks 2 [1, 2, 3, 4, 5] = [[1, 2], [3, 4], [5]] := by decide

/-! ### Witnesses: the hypotheses of each statement can be met -/

theorem witness_RotationFollowsTheFormula :
    (0 < 1 ∧ 1 < 32) ∧ (0 < 31 ∧ 31 < 32) ∧ defaultConfig.ok = true := by decide

/-- The first and the last byte of a field; words of 0, 4 and 8 bytes that end at its end, with their first and last bytes. -/
theorem witness_DataReadsAreTheFieldsBytes :
    (0 < (counting 9).length ∧ 8 < (counting 9).length) ∧
      (9 + 0 ≤ (counting 9).length ∧ 5 + 4 ≤ (counting 9).length ∧ 1 + 8 ≤ (counting 9).length) ∧
      dataRead (8 * 4) (counting 9) 5 4 = 0x08070605#32 ∧ dataRead (8 * 8) (counting 9) 1 8 = 0x0807060504030201#64 := by decide

theorem witness_OpcodeMapIsExactlySix :
    ∀ o ∈ [0x00#8, 0x04#8, 0x10#8, 0x14#8, 0x23#8, 0xff#8], Running (both .active [o]) ∧ (both .active [o]).stream = o :: [] ∧
      o ∉ [0x01#8, 0x02#8, 0x03#8, 0x11#8, 0x12#8, 0x13#8] := by decide

theorem witness_DecodeOfEncode : ∀ i ∈ [Instr.new32 0, .absorb32 [1], .final32, .new64 0, .absorb64 [], .final64], i.wellFormed defaultConfig = true := by
  decide

theorem witness_EncodeOfDecode : decode defaultConfig [0x02, 1, 0, 0, 0, 0, 0, 0, 0, 5, 0x03] = .frame (.absorb32 [5]) [0x03] := by decide

/-- One command that completes and one that faults. -/
theorem witness_StepRunsTheDecodedCommand :
    (Running (both .active [0x03, 7]) ∧ decode (both .active [0x03, 7]).config (both .active [0x03, 7]).stream = .frame .final32 [7] ∧
      ((nextOf (exec .final32 (both .active [0x03, 7]))).map (·.faultReg.halted)) = some false) ∧
    (Running (both .uninit [0x03, 7]) ∧ decode (both .uninit [0x03, 7]).config (both .uninit [0x03, 7]).stream = .frame .final32 [7] ∧
      ((nextOf (exec .final32 (both .uninit [0x03, 7]))).map (·.faultReg.halted)) = some true) := by decide

/-- A seed cut at either end, a length field cut, and a data field cut at its first byte. -/
theorem witness_IncompleteFrameWaits :
    ∀ p ∈ [(Instr.new32 5, 1), (.new64 5, 4), (.absorb32 [1, 2], 1), (.absorb32 [1, 2], 8), (.absorb64 [1, 2], 9), (.absorb64 [1, 2], 10)],
      p.1.wellFormed defaultConfig = true ∧ 0 < p.2 ∧ p.2 < frameLength defaultConfig p.1 ∧
        (both .active ((encode defaultConfig p.1).take p.2)).stream = (encode (both .active []).config p.1).take p.2 ∧
        Running (both .active ((encode defaultConfig p.1).take p.2)) := by decide

theorem witness_HaltIsStickyUntilReset :
    ¬ Running haltedBlock ∧ Move.blockStep ≠ .hostReset ∧ Move.hostSend [1] ≠ .hostReset ∧
      (nextOf (step (both .uninit [0x13, 1]))).map (·.faultReg.halted) = some true := by decide

/-- A command that faults, alone and in a step, and an illegal opcode byte. -/
theorem witness_FaultEntryChangesNothingElse :
    (nextOf (exec (.absorb64 []) (both .finalized []))).map (·.faultReg.halted) = some true ∧
      decode (both .finalized [0x13]).config (both .finalized [0x13]).stream = .frame .final64 [] ∧
      (nextOf (step (both .finalized [0x13]))).map (·.faultReg) = some { halted := true, cause := .doubleFinal, funit := .u64 } ∧
      (nextOf (step (both .active [0x00]))).map (·.faultReg.cause) = some .illegalCommand := by decide

/-- A state for each cell of the table, the count overflow at its boundary. -/
theorem witness_AdmissionFollowsTheTable :
    admission .absorb .uninit (exceedsCount (both .uninit []) (.absorb32 [])) = some .notInitialised ∧
    admission .absorb .finalized (exceedsCount (both .finalized []) (.absorb32 [])) = some .absorbAfterFinal ∧
    admission .absorb .active (exceedsCount (small 1 (zero32 .active 1) (zero64 .active 0) []) (.absorb32 [0])) = some .countOverflow ∧
    admission .absorb .active (exceedsCount (small 1 (zero32 .active 0) (zero64 .active 0) []) (.absorb32 [0])) = none ∧
    admission .final .finalized (exceedsCount (both .finalized []) .final64) = some .doubleFinal ∧
    admission .final .active (exceedsCount (both .active []) .final64) = none ∧
    admission .new .finalized (exceedsCount (both .finalized []) (.new64 0)) = none ∧
    Running (both .active [0x20]) ∧ (both .active [0x20]).stream = [0x20] ∧ decodeOpcode 0x20 = none := by decide

theorem witness_CmdIdxCountsCompletedFrames :
    (nextOf (step (both .active [0x03]))).map (·.faultReg.halted) = some false ∧
      (nextOf (step (both .finalized [0x03]))).map (·.faultReg.halted) = some true := by decide

/-- A FINAL of each unit that completes, a FINAL that faults, and a command that is no FINAL. -/
theorem witness_OnlyCompletedFinalsRespond :
    ((nextOf (step (both .active [0x03]))).map (·.faultReg.halted) = some false ∧ decode (both .active [0x03]).config (both .active [0x03]).stream = .frame .final32 []) ∧
    ((nextOf (step (both .active [0x13]))).map (·.faultReg.halted) = some false ∧ decode (both .active [0x13]).config (both .active [0x13]).stream = .frame .final64 []) ∧
    (nextOf (step (both .finalized [0x13]))).map (·.faultReg.halted) = some true ∧
    ((nextOf (step (both .active (0x01 :: counting 4)))).isSome = true ∧
      ∀ i rest, decode (both .active []).config (both .active (0x01 :: counting 4)).stream = .frame i rest → i.operation ≠ .final) := by
  refine ⟨by decide, by decide, by decide, by decide, ?_⟩
  intro i rest h
  have e : decode (both .active []).config (both .active (0x01 :: counting 4)).stream = .frame (.new32 0x03020100) [] := by decide
  rw [e] at h
  cases h
  decide

theorem witness_StepIgnoresLaterBytes : (nextOf (step (both .active [0x03]))).isSome = true := by decide

theorem witness_StreamRunsItsCommandsInOrder :
    (∀ i ∈ [Instr.new32 1, .final32], i.wellFormed defaultConfig = true) ∧
      (both .uninit (encodeAll defaultConfig [.new32 1, .final32] ++ [9])).stream = encodeAll defaultConfig [.new32 1, .final32] ++ [9] ∧
      Running (both .uninit (encodeAll defaultConfig [.new32 1, .final32] ++ [9])) ∧
      (nextOf (execAll [.new32 1, .final32] (both .uninit (encodeAll defaultConfig [.new32 1, .final32] ++ [9])))).map (·.faultReg.halted) = some false := by
  decide

theorem witness_ResetLeavesTheResetState : haltedBlock.assertReset = haltedBlock.assertReset ∨ haltedBlock.assertReset = State.reset := .inl rfl

theorem witness_StatusFieldsStandWhereTheyShould :
    FaultReg.coherent (both .active []).faultReg ∧ FaultReg.coherent haltedBlock.faultReg ∧
      FaultReg.coherent ((both .active []).illegalCommand).faultReg := by
  refine ⟨by decide, by decide, by decide⟩

theorem witness_ResetMeetsTheInvariant : defaultConfig.ok = true ∧ { defaultConfig with countWidth := 1 }.ok = true := by decide

/-- A state that meets the invariant, with counts at their bound, and steps. -/
theorem witness_StepKeepsTheInvariant :
    StateInv (small 4 (zero32 .active 15) (zero64 .finalized 15) [0x03]) ∧
      (nextOf (step (small 4 (zero32 .active 15) (zero64 .finalized 15) [0x03]))).isSome = true :=
  ⟨⟨by decide, by decide, by decide, by decide, by decide, by decide⟩, by decide⟩

theorem witness_EveryHistoryKeepsTheInvariant : StateInv haltedBlock :=
  ⟨by decide, by decide, by decide, by decide, by decide, by decide⟩

/-- A tail of 0 bytes and one of 15, at the first and the last byte position. -/
theorem witness_TailStep32 : (0 ≤ 15 ∧ 0 < 16) ∧ (15 ≤ 15 ∧ 15 < 16) ∧
    ((tailWords32 (counting 15) 0 15).get (Lane4.after (14 / 4))).extractLsb' (8 * (14 % 4)) 8 = 14#8 ∧
    ((tailWords32 (counting 15) 0 15).get (Lane4.after (15 / 4))).extractLsb' (8 * (15 % 4)) 8 = 0#8 := by decide

theorem witness_TailStep64 : (0 ≤ 15 ∧ 0 < 16) ∧ (15 ≤ 15 ∧ 15 < 16) ∧
    ((tailWords64 (counting 15) 0 15).get (Lane2.after (8 / 8))).extractLsb' (8 * (8 % 8)) 8 = 8#8 ∧
    ((tailWords64 (counting 15) 0 15).get (Lane2.after (7 / 8))).extractLsb' (8 * (7 % 8)) 8 = 7#8 := by decide

/-- NEW runs in every life state. -/
theorem witness_NewEffect : Running (both .uninit []) ∧ Running (both .active []) ∧ Running (both .finalized []) := by decide

/-- Each clause of ABSORB32: the overflow by one byte, and the count that just fits. -/
theorem witness_Absorb32Effect :
    (Running (both .uninit []) ∧ (both .uninit []).u32.life = .uninit) ∧ (Running (both .finalized []) ∧ (both .finalized []).u32.life = .finalized) ∧
    ((small 4 (zero32 .active 10) (zero64 .active 0) []).u32.life = .active ∧ 10 + (counting 6).length > 2 ^ 4 - 1) ∧
    TakesAbsorb (small 4 (zero32 .active 10) (zero64 .active 0) []).config (zero32 .active 10) (counting 5).length := by decide

theorem witness_Absorb64Effect :
    (Running (both .uninit []) ∧ (both .uninit []).u64.life = .uninit) ∧ (Running (both .finalized []) ∧ (both .finalized []).u64.life = .finalized) ∧
    ((small 4 (zero32 .active 0) (zero64 .active 10) []).u64.life = .active ∧ 10 + (counting 6).length > 2 ^ 4 - 1) ∧
    TakesAbsorb (small 4 (zero32 .active 0) (zero64 .active 10) []).config (zero64 .active 10) (counting 5).length := by decide

/-- An ACTIVE unit whose count is full still takes a chunk of no bytes. -/
theorem witness_ZeroLengthAbsorbOnlyCounts :
    Running (small 4 (zero32 .active 15) (zero64 .active 15) []) ∧
      TakesAbsorb (small 4 (zero32 .active 15) (zero64 .active 15) []).config (zero32 .active 15) 0 ∧
      TakesAbsorb (small 4 (zero32 .active 15) (zero64 .active 15) []).config (zero64 .active 15) 0 := by decide

/-- Chunks of 16, 0, 32 and, last, 5 bytes. -/
theorem witness_AlignedChunking :
    alignedChunks [counting 16, [], counting 32, counting 5] ∧ Running (both .active []) ∧
      TakesAbsorb (both .active []).config (both .active []).u32 [counting 16, [], counting 32, counting 5].flatten.length ∧
      TakesAbsorb (both .active []).config (both .active []).u64 [counting 16, [], counting 32, counting 5].flatten.length := by decide

theorem witness_XorLenTakesTheCountModuloTheLane :
    (3#32).toNat = (2 ^ 32 + 3) % 2 ^ 32 ∧ (0xffffffff#32).toNat = (2 ^ 32 - 1) % 2 ^ 32 ∧ (3#64).toNat = (2 ^ 64 + 3) % 2 ^ 64 := by decide

theorem witness_AvalancheMixesAreBijections : defaultConfig.ok = true := by decide

theorem witness_FinalEffect :
    (both .uninit []).u32.life = .uninit ∧ (both .uninit []).u64.life = .uninit ∧ (both .finalized []).u32.life = .finalized ∧
      (both .finalized []).u64.life = .finalized ∧ (both .active []).u32.life = .active ∧ (both .active []).u64.life = .active := by decide

/-- A FINAL of each unit, then commands of the other unit, none of which faults. -/
theorem witness_FinalizedUnitAwaitsNew :
    (nextOf (execAll [.final32] (both .active []))).map (·.faultReg.halted) = some false ∧
    (nextOf (execAll [.final32, .absorb64 [1], .final64] (both .active []))).map (·.faultReg.halted) = some false ∧
    (nextOf (execAll [.final64, .new32 3, .final32] (both .active []))).map (·.faultReg.halted) = some false := by decide

/-- NEW, ABSORB and FINAL that answer a next state; ABSORB and FINAL that fault. -/
theorem witness_Frames :
    (nextOf (exec (.new32 0) (both .active []))).isSome = true ∧ (nextOf (exec (.new64 0) (both .active []))).isSome = true ∧
    (nextOf (exec (.absorb32 [1]) (both .active []))).map (·.faultReg.halted) = some false ∧
    (nextOf (exec (.absorb64 [1]) (both .uninit []))).map (·.faultReg.halted) = some true ∧
    (nextOf (exec .final64 (both .active []))).map (·.faultReg.halted) = some false ∧
    (nextOf (exec .final32 (both .finalized []))).map (·.faultReg.halted) = some true := by decide

/-- NEW ABSORB FINAL NEW of U32 with NEW FINAL of U64 between. -/
theorem witness_FaultFreeRunsFollowTheGrammar :
    Running (both .uninit []) ∧ (both .uninit []).u32.life = .uninit ∧ (both .uninit []).u64.life = .uninit ∧
    totalData [.new32 0, .new64 0, .absorb32 [1], .final64, .final32, .new32 1] ≤ 2 ^ (both .uninit []).config.countWidth - 1 ∧
    InGrammar (unitOperations .u32 [.new32 0, .new64 0, .absorb32 [1], .final64, .final32, .new32 1]) ∧
    InGrammar (unitOperations .u64 [.new32 0, .new64 0, .absorb32 [1], .final64, .final32, .new32 1]) ∧
    (nextOf (execAll [.new32 0, .new64 0, .absorb32 [1], .final64, .final32, .new32 1] (both .uninit []))).map (·.faultReg.halted) = some false :=
  ⟨by decide, by decide, by decide, by decide, ⟨[(1, true), (0, false)], by decide⟩, ⟨[(0, true)], by decide⟩, by decide⟩

/-- A command of each unit, and another unit to put in the place of the one it does not address. -/
theorem witness_UnitsDoNotInterfere :
    (Instr.absorb32 [1]).unit = .u32 ∧ Instr.final64.unit = .u64 ∧
      (both .active []).setU64 (zero64 .finalized 7) ≠ both .active [] ∧
      (both .active []).setU32 (zero32 .finalized 7) ≠ both .active [] := by decide

theorem witness_BlocksAreIndependent :
    (0 : Nat) ≠ 1 ∧ (System.move [both .active [0x03], both .active [0x13]] 0 .blockStep)[0]? ≠ some (both .active [0x03]) := by decide

/-- Steps of 1 and of more than the field. -/
theorem witness_PseudoInstructionsExpand :
    1 ≤ 1 ∧ (chunks 1 (counting 2)).length = 2 ∧ (chunks 5 (counting 2)).length = 1 ∧ (chunks 5 []).length = 0 := by decide

end Sys2Proof.Tests
end

/-! ### Byte order, rotation and the data field's reads (00_scope.md R10, R11, R13) -/

namespace Sys2Proof

/-- Byte j of a written number is its bits from 8j on (00_scope.md R11). -/
theorem encLe_getElem? {m j : Nat} (v : Nat) (h : j < m) :
    (encLe m v)[j]? = some (BitVec.ofNat 8 (v >>> (8 * j))) := by
  induction m generalizing v j with
  | zero => omega
  | succ m ih =>
    cases j with
    | zero =>
      have hmod : BitVec.ofNat 8 (v % 256) = BitVec.ofNat 8 v := by
        apply BitVec.eq_of_toNat_eq
        simp
      simp [encLe, hmod]
    | succ j =>
      have hshift : (v / 256) >>> (8 * j) = v >>> (8 * (j + 1)) := by
        rw [Nat.mul_succ, Nat.add_comm, Nat.shiftRight_add, Nat.shiftRight_eq_div_pow v 8]
      rw [encLe, List.getElem?_cons_succ, ih _ (by omega), hshift]

/-- Byte j of a written word, as a field of the word. -/
theorem encLe_toNat_getElem? {w m j : Nat} (x : BitVec w) (h : j < m) :
    (encLe m x.toNat)[j]? = some (x.extractLsb' (8 * j) 8) :=
  encLe_getElem? x.toNat h

/-- `le` as the sum of R11. -/
theorem le_eq_sum (bs : List Byte) :
    le bs = ((List.range bs.length).map fun j => (bs.getD j 0#8).toNat * 2 ^ (8 * j)).sum := by
  induction bs with
  | nil => rfl
  | cons b bs ih =>
    have hshift : ∀ j, (bs.getD j 0#8).toNat * 2 ^ (8 * (j + 1)) = 256 * ((bs.getD j 0#8).toNat * 2 ^ (8 * j)) := by
      intro j
      rw [Nat.mul_succ, Nat.pow_add]
      ring
    rw [le, ih, List.length_cons, List.range_succ_eq_map, List.map_cons, List.sum_cons, List.map_map,
      ← List.sum_map_mul_left]
    simp only [Function.comp_def, List.getD_cons_zero, List.getD_cons_succ, Nat.succ_eq_add_one, hshift,
      Nat.mul_zero, Nat.pow_zero, Nat.mul_one]

/-- A word of 8m bits holds the value of m bytes whole. -/
theorem leWord_toNat {m : Nat} {bs : List Byte} (h : bs.length = m) : (leWord (8 * m) bs).toNat = le bs := by
  have hlt : le bs < 2 ^ (8 * m) := by
    rw [Nat.pow_mul, ← h]
    exact le_lt bs
  rw [leWord, BitVec.toNat_ofNat, Nat.mod_eq_of_lt hlt]

/-- Byte p of the word that bytes spell is the byte at place p. -/
theorem leWord_extractLsb' {m p : Nat} {bs : List Byte} (h : bs.length = m) (hp : p < m) :
    some ((leWord (8 * m) bs).extractLsb' (8 * p) 8) = bs[p]? := by
  rw [← encLe_toNat_getElem? _ hp, leWord_toNat h, ← h, encLe_le]

/-- Four bytes are written back from the word they spell. -/
theorem encLe32_leWord {bs : List Byte} (h : bs.length = 4) : encLe32 (leWord 32 bs) = bs := by
  have hle : (leWord 32 bs).toNat = le bs := leWord_toNat (m := 4) h
  rw [encLe32, hle, ← h, encLe_le]

/-- R10, as a number. -/
theorem rotl_toNat {w : Nat} (r : Nat) (x : BitVec w) :
    (rotl r x).toNat = ((x.toNat <<< r) ||| (x.toNat >>> (w - r))) % 2 ^ w := by
  have hlow : x.toNat >>> (w - r) < 2 ^ w := (Nat.shiftRight_le _ _).trans_lt x.isLt
  rw [rotl, BitVec.toNat_or, BitVec.toNat_shiftLeft, BitVec.toNat_ushiftRight, Nat.or_mod_two_pow,
    Nat.mod_eq_of_lt hlow]

/-- Both rotations of a lane lie strictly between 0 and the lane's width (00_scope.md R10). -/
abbrev LaneConsts.RotationsInside {w : Nat} (k : LaneConsts w) : Prop :=
  0 < k.rk ∧ k.rk < w ∧ 0 < k.rh ∧ k.rh < w

theorem LaneConsts.rotationsInside_of_ok {w : Nat} {k : LaneConsts w} (h : k.ok = true) : k.RotationsInside := by
  simp only [LaneConsts.ok, Bool.and_eq_true, decide_eq_true_eq] at h
  obtain ⟨⟨⟨⟨-, hrk⟩, hrkw⟩, hrh⟩, hrhw⟩ := h
  exact ⟨hrk, hrkw, hrh, hrhw⟩

/-- Every lane of U32 in an allowed configuration has allowed constants. -/
theorem Config.mix32_ok {g : Config} (h : g.ok = true) (i : Lane4) : (g.mix32.get i).ok = true := by
  simp only [Config.ok, Bool.and_eq_true] at h
  cases i <;> simp only [Quad.get, h]

/-- Every lane of U64 in an allowed configuration has allowed constants. -/
theorem Config.mix64_ok {g : Config} (h : g.ok = true) (i : Lane2) : (g.mix64.get i).ok = true := by
  simp only [Config.ok, Bool.and_eq_true] at h
  cases i <;> simp only [Duo.get, h]

/-- Settles O1: the shifted-out bits are what `% 2 ^ W` removes, and `Config.ok` bounds every lane's amounts. -/
theorem rotationFollowsTheFormula : Obligations.RotationFollowsTheFormula :=
  ⟨fun _ r x _ _ => rotl_toNat r x,
    fun _ hok =>
      ⟨fun i => LaneConsts.rotationsInside_of_ok (Config.mix32_ok hok i),
        fun i => LaneConsts.rotationsInside_of_ok (Config.mix64_ok hok i)⟩,
    by decide⟩

/-- Settles O2: `le` by induction on the bytes, `enc_le_N` from the bytes of `encLe`. -/
theorem littleEndianFollowsTheFormula : Obligations.LittleEndianFollowsTheFormula := by
  refine ⟨le_eq_sum, fun v => ⟨encLe32_length v, fun j hj => ?_⟩, fun v => ⟨encLe64_length v, fun j hj => ?_⟩⟩
  · rw [List.getD_eq_getElem?_getD, encLe32, encLe_toNat_getElem? v hj, Option.getD_some]
  · rw [List.getD_eq_getElem?_getD, encLe64, encLe_toNat_getElem? v hj, Option.getD_some]

/-- A byte inside the part of the data field that `DataRead(i, m)` reads. -/
theorem getElem?_take_drop {data : List Byte} {i m p : Nat} (hp : p < m) :
    ((data.drop i).take m)[p]? = data[i + p]? := by
  rw [List.getElem?_take_of_lt hp, List.getElem?_drop]

/-- Settles O3: the bytes read are m bytes of the field, and a word of 8m bits holds them whole. -/
theorem dataReadsAreTheFieldsBytes : Obligations.DataReadsAreTheFieldsBytes := by
  intro data
  refine ⟨fun p hp => by simp [Machine.dataByte, hp], fun i m him => ?_⟩
  have hlen : ((data.drop i).take m).length = m := by
    rw [List.length_take, List.length_drop]
    omega
  have hval : (Machine.dataRead (8 * m) data i m).toNat = le ((data.drop i).take m) := leWord_toNat hlen
  refine ⟨hval, ?_, fun p hp => ?_⟩
  · rw [hval, le_eq_sum, hlen]
    congr 1
    refine List.map_congr_left fun p hp => ?_
    rw [List.getD_eq_getElem?_getD, getElem?_take_drop (List.mem_range.mp hp), ← List.getD_eq_getElem?_getD]
  · rw [Machine.dataRead, leWord_extractLsb' hlen hp, getElem?_take_drop hp]

end Sys2Proof

/-! ### The frames of the three formats (30_encoding.md R71 to R75) -/

namespace Sys2Proof

/-- The opcode byte of an operation of a unit (30_encoding.md R76). -/
def opcodeByte : UnitSel → Operation → Byte
  | .u32, .new => 0x01#8
  | .u32, .absorb => 0x02#8
  | .u32, .final => 0x03#8
  | .u64, .new => 0x11#8
  | .u64, .absorb => 0x12#8
  | .u64, .final => 0x13#8

@[simp] theorem decodeOpcode_opcodeByte (u : UnitSel) (op : Operation) :
    decodeOpcode (opcodeByte u op) = some (u, op) := by
  cases u <;> cases op <;> decide

/-- No other byte decodes to an operation of a unit. -/
theorem eq_opcodeByte_of_decodeOpcode {o : Byte} {u : UnitSel} {op : Operation}
    (h : decodeOpcode o = some (u, op)) : o = opcodeByte u op := by
  rcases decodeOpcode_some h with ⟨rfl, rfl, rfl⟩ | ⟨rfl, rfl, rfl⟩ | ⟨rfl, rfl, rfl⟩ | ⟨rfl, rfl, rfl⟩ |
    ⟨rfl, rfl, rfl⟩ | ⟨rfl, rfl, rfl⟩ <;> rfl

/-- Every command is of one of the three formats N, A and F. -/
theorem Instr.format_cases (i : Instr) :
    (∃ u seed, i = newOf u seed) ∨ (∃ u data, i = absorbOf u data) ∨ ∃ u, i = finalOf u := by
  cases i with
  | new32 seed => exact .inl ⟨.u32, seed, rfl⟩
  | absorb32 data => exact .inr (.inl ⟨.u32, data, rfl⟩)
  | final32 => exact .inr (.inr ⟨.u32, rfl⟩)
  | new64 seed => exact .inl ⟨.u64, seed, rfl⟩
  | absorb64 data => exact .inr (.inl ⟨.u64, data, rfl⟩)
  | final64 => exact .inr (.inr ⟨.u64, rfl⟩)

@[simp] theorem wellFormed_newOf (g : Config) (u : UnitSel) (seed : Word32) : (newOf u seed).wellFormed g = true := by
  cases u <;> rfl

@[simp] theorem wellFormed_absorbOf (g : Config) (u : UnitSel) (data : List Byte) :
    (absorbOf u data).wellFormed g = true ↔ data.length < 2 ^ (8 * g.lenBytes) := by
  cases u <;> simp [absorbOf, Instr.wellFormed, lengthFits]

@[simp] theorem wellFormed_finalOf (g : Config) (u : UnitSel) : (finalOf u).wellFormed g = true := by
  cases u <;> rfl

theorem encode_newOf (g : Config) (u : UnitSel) (seed : Word32) :
    encode g (newOf u seed) = opcodeByte u .new :: encLe32 seed := by
  cases u <;> rfl

theorem encode_absorbOf (g : Config) (u : UnitSel) (data : List Byte) :
    encode g (absorbOf u data) = opcodeByte u .absorb :: (encLe g.lenBytes data.length ++ data) := by
  cases u <;> rfl

theorem encode_finalOf (g : Config) (u : UnitSel) : encode g (finalOf u) = [opcodeByte u .final] := by
  cases u <;> rfl

theorem decode_new (g : Config) (u : UnitSel) (bs : List Byte) :
    decode g (opcodeByte u .new :: bs) = decodeNew u bs := by
  simp only [decode, decodeOpcode_opcodeByte]

theorem decode_absorb (g : Config) (u : UnitSel) (bs : List Byte) :
    decode g (opcodeByte u .absorb :: bs) = decodeAbsorb g u bs := by
  simp only [decode, decodeOpcode_opcodeByte]

theorem decode_final (g : Config) (u : UnitSel) (bs : List Byte) :
    decode g (opcodeByte u .final :: bs) = .frame (finalOf u) bs := by
  simp only [decode, decodeOpcode_opcodeByte]

/-- A byte sequence that decodes to a frame begins with the opcode byte of the format that read it. -/
theorem decode_frame_cases {g : Config} {bs rest : List Byte} {i : Instr} (h : decode g bs = .frame i rest) :
    ∃ u tl, (bs = opcodeByte u .new :: tl ∧ decodeNew u tl = .frame i rest) ∨
      (bs = opcodeByte u .absorb :: tl ∧ decodeAbsorb g u tl = .frame i rest) ∨
      (bs = opcodeByte u .final :: tl ∧ i = finalOf u ∧ rest = tl) := by
  cases bs with
  | nil => cases h
  | cons o tl =>
    cases hop : decodeOpcode o with
    | none =>
      simp only [decode, hop] at h
      cases h
    | some r =>
      obtain ⟨u, op⟩ := r
      obtain rfl := eq_opcodeByte_of_decodeOpcode hop
      refine ⟨u, tl, ?_⟩
      cases op with
      | new => exact .inl ⟨rfl, decode_new g u tl ▸ h⟩
      | absorb => exact .inr (.inl ⟨rfl, decode_absorb g u tl ▸ h⟩)
      | final =>
        rw [decode_final] at h
        cases h
        exact .inr (.inr ⟨rfl, rfl, rfl⟩)

/-- The seed bytes of format N are read back (R72). -/
theorem decodeNew_encLe32 (u : UnitSel) (seed : Word32) (rest : List Byte) :
    decodeNew u (encLe32 seed ++ rest) = .frame (newOf u seed) rest := by
  have htake : (encLe32 seed ++ rest).take 4 = encLe32 seed := List.take_left' (encLe32_length seed)
  have hdrop : (encLe32 seed ++ rest).drop 4 = rest := List.drop_left' (encLe32_length seed)
  have hlen : ¬ (encLe32 seed ++ rest).length < 4 := by simp
  rw [decodeNew, if_neg hlen, htake, hdrop, leWord_encLe32]

/-- A data field whose length is known is read back (R73). -/
theorem decodeData_append (u : UnitSel) (data rest : List Byte) :
    decodeData u data.length (data ++ rest) = .frame (absorbOf u data) rest := by
  have hlen : ¬ (data ++ rest).length < data.length := by simp
  rw [decodeData, if_neg hlen, List.take_left, List.drop_left]

/-- The length field and the data field of format A are read back, if the length field can hold the length (R73). -/
theorem decodeAbsorb_encLe {g : Config} (u : UnitSel) {data : List Byte} (rest : List Byte)
    (h : data.length < 2 ^ (8 * g.lenBytes)) :
    decodeAbsorb g u (encLe g.lenBytes data.length ++ (data ++ rest)) = .frame (absorbOf u data) rest := by
  have hfield := encLe_length g.lenBytes data.length
  have hlen : ¬ (encLe g.lenBytes data.length ++ (data ++ rest)).length < g.lenBytes := by simp
  rw [decodeAbsorb, if_neg hlen, List.take_left' hfield, List.drop_left' hfield, le_encLe_of_lt h, decodeData_append]

/-- Settles O7: each format reads its own fields back. -/
theorem decodeOfEncode : Obligations.DecodeOfEncode := by
  intro g i rest hwf
  rcases i.format_cases with ⟨u, seed, rfl⟩ | ⟨u, data, rfl⟩ | ⟨u, rfl⟩
  · rw [encode_newOf, List.cons_append, decode_new, decodeNew_encLe32]
  · rw [encode_absorbOf, List.cons_append, decode_absorb, List.append_assoc,
      decodeAbsorb_encLe u rest ((wellFormed_absorbOf g u data).mp hwf)]
  · rw [encode_finalOf, List.singleton_append, decode_final]

/-- What format N reads are the bytes it writes (R72). -/
theorem encode_of_decodeNew {g : Config} {u : UnitSel} {tl rest : List Byte} {i : Instr}
    (h : decodeNew u tl = .frame i rest) :
    i.wellFormed g = true ∧ opcodeByte u .new :: tl = encode g i ++ rest := by
  obtain ⟨hlen, rfl, rfl⟩ := decodeNew_frame h
  have hseed : (tl.take 4).length = 4 := by simpa using hlen
  rw [encode_newOf, encLe32_leWord hseed, List.cons_append, List.take_append_drop]
  exact ⟨wellFormed_newOf g u _, rfl⟩

/-- What format A reads are the bytes it writes: the length field spells the length of the data field taken (R73). -/
theorem encode_of_decodeAbsorb {g : Config} {u : UnitSel} {tl rest : List Byte} {i : Instr}
    (h : decodeAbsorb g u tl = .frame i rest) :
    i.wellFormed g = true ∧ opcodeByte u .absorb :: tl = encode g i ++ rest := by
  obtain ⟨hfield, hdata, rfl, rfl⟩ := decodeAbsorb_frame h
  have hn := List.length_take_of_le hdata
  have hwritten : encLe g.lenBytes (le (tl.take g.lenBytes)) = tl.take g.lenBytes := by
    have := encLe_le (tl.take g.lenBytes)
    rwa [List.length_take_of_le hfield] at this
  rw [wellFormed_absorbOf, encode_absorbOf, hn, hwritten, List.cons_append, List.append_assoc,
    List.take_append_drop, List.take_append_drop]
  exact ⟨le_take_lt _ _ hfield, rfl⟩

/-- Every command's frame has the length of R75. -/
theorem encode_length (g : Config) (i : Instr) : (encode g i).length = frameLength g i := by
  cases i with
  | new32 seed => exact (Laws.FrameShape.new32 seed g).1
  | absorb32 data => exact (Laws.FrameShape.absorb32 data g).1
  | final32 => exact (Laws.FrameShape.final32 g).1
  | new64 seed => exact (Laws.FrameShape.new64 seed g).1
  | absorb64 data => exact (Laws.FrameShape.absorb64 data g).1
  | final64 => exact (Laws.FrameShape.final64 g).1

/-- A frame that is read is the well-formed encoding of its command. -/
theorem encode_of_decode {g : Config} {bs rest : List Byte} {i : Instr} (h : decode g bs = .frame i rest) :
    i.wellFormed g = true ∧ bs = encode g i ++ rest := by
  obtain ⟨u, tl, ⟨rfl, hnew⟩ | ⟨rfl, habsorb⟩ | ⟨rfl, rfl, rfl⟩⟩ := decode_frame_cases h
  · exact encode_of_decodeNew hnew
  · exact encode_of_decodeAbsorb habsorb
  · exact ⟨wellFormed_finalOf g u, by rw [encode_finalOf, List.singleton_append]⟩

/-- Settles O8: each format's fields are rebuilt from the bytes it read. -/
theorem encodeOfDecode : Obligations.EncodeOfDecode := by
  intro g bs rest i h
  obtain ⟨hwf, hbytes⟩ := encode_of_decode h
  exact ⟨hwf, hbytes, encode_length g i, rfl⟩

end Sys2Proof

/-! ### Independence of the units and the parameters after reset (00_scope.md R2, R7) -/

namespace Sys2Proof.Machine

open Sys2Proof.Safety

/-- A change of the state that a command's check, its completion and its fault entry do not see goes through the command. -/
theorem exec_commutes {f : State → State} {i : Instr} {s : State} (hfault : (f s).faultReg = s.faultReg)
    (hcheck : checkOf i (f s) = checkOf i s) (hraise : ∀ c, (f s).raiseFault c i.unit = f (s.raiseFault c i.unit))
    (hdone : completed i (f s) = f (completed i s)) : exec i (f s) = mapNext f (exec i s) := by
  have hguarded : guarded (checkOf i (f s)) i.unit (f s) (completed i (f s)) =
      f (guarded (checkOf i s) i.unit s (completed i s)) := by
    rw [hcheck, hdone]
    cases checkOf i s with
    | none => rfl
    | some c => exact hraise c
  rw [exec_eq_guarded, exec_eq_guarded, hguarded]
  have hhalted : (f s).faultReg.halted = s.faultReg.halted := congrArg FaultReg.halted hfault
  cases h : s.faultReg.halted with
  | false => rw [accept_running h, accept_running (hhalted.trans h), mapNext]
  | true => rw [accept_halted h, accept_halted (hhalted.trans h), mapNext]

/-- A command of U32 goes through any change of U64 (R2). -/
theorem exec_setU64 {i : Instr} (h : i.unit = .u32) (s : State) (v : HashUnit (Duo Word64)) :
    exec i (s.setU64 v) = mapNext (fun t => t.setU64 v) (exec i s) := by
  obtain ⟨hcheck, hdone⟩ : checkOf i (s.setU64 v) = checkOf i s ∧ completed i (s.setU64 v) = (completed i s).setU64 v := by
    cases i with
    | new32 seed => exact ⟨rfl, rfl⟩
    | absorb32 data => exact ⟨rfl, rfl⟩
    | final32 => exact ⟨rfl, rfl⟩
    | new64 seed => cases h
    | absorb64 data => cases h
    | final64 => cases h
  exact exec_commutes (f := fun t => t.setU64 v) rfl hcheck (fun _ => rfl) hdone

/-- A command of U64 goes through any change of U32 (R2). -/
theorem exec_setU32 {i : Instr} (h : i.unit = .u64) (s : State) (v : HashUnit (Quad Word32)) :
    exec i (s.setU32 v) = mapNext (fun t => t.setU32 v) (exec i s) := by
  obtain ⟨hcheck, hdone⟩ : checkOf i (s.setU32 v) = checkOf i s ∧ completed i (s.setU32 v) = (completed i s).setU32 v := by
    cases i with
    | new32 seed => cases h
    | absorb32 data => cases h
    | final32 => cases h
    | new64 seed => exact ⟨rfl, rfl⟩
    | absorb64 data => exact ⟨rfl, rfl⟩
    | final64 => exact ⟨rfl, rfl⟩
  exact exec_commutes (f := fun t => t.setU32 v) rfl hcheck (fun _ => rfl) hdone

/-- Settles O51: a command's check and completion look at its own unit alone. -/
theorem unitsDoNotInterfere : Obligations.UnitsDoNotInterfere :=
  fun _ s => ⟨fun h v => exec_setU64 h s v, fun h v => exec_setU32 h s v⟩

/-- Settles O19: the block after reset has the default parameters. -/
theorem defaultParameters : Obligations.DefaultParameters :=
  ⟨rfl, rfl, lenBytes_default, rfl, rfl, rfl, rfl⟩

end Sys2Proof.Machine

/-! ### What a command and a step leave behind (10_state.md R26, R29; 20_memory.md R53; 60_exceptions.md R203) -/

namespace Sys2Proof.Machine

open Sys2Proof.Safety

@[simp] theorem digest32_length (h : Quad Word32) : (digest32 h).length = 16 := by simp [digest32]

@[simp] theorem digest64_length (h : Duo Word64) : (digest64 h).length = 16 := by simp [digest64]

/-- The bytes a completed command appends to the response stream: the digest of a FINAL, otherwise none (R53). -/
def emitted (i : Instr) (s : State) : List Byte :=
  match i with
  | .new32 _ => []
  | .absorb32 _ => []
  | .final32 => digest32 (finalUnit32 s.config s.u32).lanes
  | .new64 _ => []
  | .absorb64 _ => []
  | .final64 => digest64 (finalUnit64 s.config s.u64).lanes

@[simp] theorem completed_response (i : Instr) (s : State) : (completed i s).response = s.response ++ emitted i s := by
  cases i with
  | new32 seed => exact (List.append_nil _).symm
  | absorb32 data => exact (List.append_nil _).symm
  | final32 => rfl
  | new64 seed => exact (List.append_nil _).symm
  | absorb64 data => exact (List.append_nil _).symm
  | final64 => rfl

theorem emitted_eq_nil {i : Instr} (h : i.operation ≠ .final) (s : State) : emitted i s = [] := by
  cases i with
  | final32 => exact absurd rfl h
  | final64 => exact absurd rfl h
  | _ => rfl

/-- A command emits whole digests of 16 bytes. -/
theorem emitted_length_mod (i : Instr) (s : State) : (emitted i s).length % 16 = 0 := by
  cases i with
  | final32 => rw [emitted, digest32_length]
  | final64 => rw [emitted, digest64_length]
  | _ => rfl

theorem completed_u64_of_u32 {i : Instr} (h : i.unit = .u32) (s : State) : (completed i s).u64 = s.u64 := by
  cases i with
  | new64 seed => cases h
  | absorb64 data => cases h
  | final64 => cases h
  | _ => rfl

theorem completed_u32_of_u64 {i : Instr} (h : i.unit = .u64) (s : State) : (completed i s).u32 = s.u32 := by
  cases i with
  | new32 seed => cases h
  | absorb32 data => cases h
  | final32 => cases h
  | _ => rfl

/-- An ABSORB keeps both lives (R105, R135). -/
theorem completed_life_of_absorb {i : Instr} (h : i.operation = .absorb) (s : State) :
    (completed i s).u32.life = s.u32.life ∧ (completed i s).u64.life = s.u64.life := by
  cases i with
  | absorb32 data => exact ⟨rfl, rfl⟩
  | absorb64 data => exact ⟨rfl, rfl⟩
  | _ => cases h

/-- A FINAL keeps both counts (R169, R170). -/
theorem completed_count_of_final {i : Instr} (h : i.operation = .final) (s : State) :
    (completed i s).u32.count = s.u32.count ∧ (completed i s).u64.count = s.u64.count := by
  cases i with
  | final32 => exact ⟨rfl, rfl⟩
  | final64 => exact ⟨rfl, rfl⟩
  | _ => cases h

/-- A NEW is checked for nothing (R104, R134). -/
theorem checkOf_new {i : Instr} (h : i.operation = .new) (s : State) : checkOf i s = none := by
  cases i with
  | new32 seed => rfl
  | new64 seed => rfl
  | _ => cases h

theorem running_completed {i : Instr} {s : State} (h : Running s) : Running (completed i s) := by
  rw [Running, completed_faultReg]
  exact h

theorem not_running_raiseFault (s : State) (c : Cause) (u : UnitSel) : ¬ Running (s.raiseFault c u) := by simp

theorem frameLength_pos (g : Config) (i : Instr) : 0 < frameLength g i := by
  unfold frameLength
  split <;> omega

/-- A step that leaves the block running has completed the command of its frame and consumed the whole frame (R51). -/
theorem step_completes {s t : State} (h : step s = .next t) (hr : Running t) :
    ∃ i rest, s.fetch = .frame i rest ∧ checkOf i s = none ∧
      t = (completed i s).consume (frameLength s.config i) := by
  obtain ⟨hs, ⟨o, -, rfl⟩ | ⟨i, rest, u, hf, hexec, rfl⟩⟩ := step_next_cases h
  · exact absurd hr (not_running_raiseFault s .illegalCommand .u32)
  · obtain ⟨-, ⟨c, -, rfl⟩ | ⟨hc, rfl⟩⟩ := exec_next_cases hexec
    · exact absurd hr (not_running_raiseFault s c i.unit)
    · have hlen : consumedBytes (frameLength s.config i) (completed i s) = frameLength s.config i := by
        simp [consumedBytes, show s.faultReg.halted = false from hs]
      exact ⟨i, rest, hf, hc, by rw [hlen]⟩

/-- A step that halts the block has written the fault record and consumed the opcode byte, and done nothing else (R203); only
ILLEGAL_COMMAND names no unit (R25). -/
theorem step_faults {s t : State} (h : step s = .next t) (hr : ¬ Running t) :
    ∃ c u, c ≠ Cause.none ∧ (c = .illegalCommand → u = UnitSel.u32) ∧ t = (s.raiseFault c u).consume 1 := by
  obtain ⟨hs, ⟨o, -, rfl⟩ | ⟨i, rest, u, -, hexec, rfl⟩⟩ := step_next_cases h
  · exact ⟨.illegalCommand, .u32, by decide, fun _ => rfl, rfl⟩
  · obtain ⟨-, ⟨c, hc, rfl⟩ | ⟨-, rfl⟩⟩ := exec_next_cases hexec
    · obtain ⟨hnone, hillegal⟩ := checkOf_cause hc
      exact ⟨c, i.unit, hnone, fun hc' => absurd hc' hillegal, rfl⟩
    · exact absurd (running_completed hs) hr

theorem step_config {s t : State} (h : step s = .next t) : t.config = s.config := by
  by_cases hr : Running t
  · obtain ⟨i, rest, -, -, rfl⟩ := step_completes h hr
    simp
  · obtain ⟨c, u, -, -, rfl⟩ := step_faults h hr
    rfl

/-- The block takes its step, or stays as it is. -/
theorem move_blockStep_cases (s : State) : step s = .next (s.move .blockStep) ∨ s.move .blockStep = s := by
  unfold State.move
  cases h : step s with
  | next t => exact .inl rfl
  | fault e => exact .inr rfl
  | refused e => exact .inr rfl

theorem move_config (s : State) (m : Move) : (s.move m).config = s.config := by
  cases m with
  | blockStep =>
    rcases move_blockStep_cases s with h | h
    · exact step_config h
    · rw [h]
  | hostSend bytes => rfl
  | hostReset => rfl

/-- A step's completed frame adds 1 to CMDIDX and its faulting frame nothing (R26). -/
theorem step_cmdIdx {s t : State} (h : step s = .next t) :
    (Running t → t.cmdIdx = s.cmdIdx + 1) ∧ (¬ Running t → t.cmdIdx = s.cmdIdx) := by
  constructor
  · intro hr
    obtain ⟨i, rest, -, -, rfl⟩ := step_completes h hr
    simp
  · intro hr
    obtain ⟨c, u, -, -, rfl⟩ := step_faults h hr
    rfl

end Sys2Proof.Machine

/-! ### The invariant (10_state.md R22, R25, R26; 20_memory.md R53) -/

namespace Sys2Proof.Safety

open Sys2Proof.Machine

/-- The admitted ABSORB keeps the count within `COUNT_WIDTH` bits (R22). -/
theorem count_lt_of_absorbCheck {L : Type} {g : Config} {v : HashUnit L} {n : Nat} (h : absorbCheck g v n = none) :
    v.count + n < 2 ^ g.countWidth := by
  have hpos : 0 < 2 ^ g.countWidth := Nat.two_pow_pos _
  rcases absorbCheck_cases g v n with ⟨-, e⟩ | ⟨-, e⟩ | ⟨-, -, e⟩ | ⟨-, hle, -⟩
  · rw [e] at h; cases h
  · rw [e] at h; cases h
  · rw [e] at h; cases h
  · omega

/-- An admitted FINAL finds its unit given by a NEW (R202). -/
theorem life_ne_uninit_of_finalCheck {L : Type} {v : HashUnit L} (h : finalCheck v = none) : v.life ≠ .uninit := by
  intro hl
  simp [finalCheck, hl] at h

/-- A completed command leaves both counts within `COUNT_WIDTH` bits: NEW starts at 0, ABSORB has been checked, FINAL keeps the count. -/
theorem countFits_completed {i : Instr} {s : State} (hc : checkOf i s = none) (h32 : countFits s.config s.u32)
    (h64 : countFits s.config s.u64) :
    countFits s.config (completed i s).u32 ∧ countFits s.config (completed i s).u64 := by
  cases i with
  | new32 seed => exact ⟨fun _ => Nat.two_pow_pos _, h64⟩
  | absorb32 data => exact ⟨fun _ => count_lt_of_absorbCheck hc, h64⟩
  | final32 => exact ⟨fun _ => h32 (life_ne_uninit_of_finalCheck hc), h64⟩
  | new64 seed => exact ⟨h32, fun _ => Nat.two_pow_pos _⟩
  | absorb64 data => exact ⟨h32, fun _ => count_lt_of_absorbCheck hc⟩
  | final64 => exact ⟨h32, fun _ => h64 (life_ne_uninit_of_finalCheck hc)⟩

/-- A completed command whose frame, of at least one byte, is consumed keeps the invariant. -/
theorem StateInv.completed_consume {i : Instr} {s : State} {m : Nat} (h : StateInv s) (hc : checkOf i s = none) (hm : 0 < m) :
    StateInv ((completed i s).consume m) := by
  obtain ⟨h32, h64⟩ := countFits_completed hc h.count32 h.count64
  have hdigests := h.digests
  have hemitted := emitted_length_mod i s
  have hframes := h.frames
  refine ⟨?_, ?_, ?_, ?_, ?_, ?_⟩
  · simpa using h.config
  · simpa using h.fault
  · simpa using h32
  · simpa using h64
  · simp only [State.consume_response, completed_response, List.length_append]
    omega
  · simp only [State.consume_cmdIdx, completed_cmdIdx, State.consume_streamPos, completed_streamPos]
    omega

/-- The fault entry of a coherent fault record keeps the invariant, however much is consumed after it (R203). -/
theorem StateInv.raiseFault_consume {s : State} {c : Cause} {u : UnitSel} (h : StateInv s) (hc : c ≠ .none)
    (hu : c = .illegalCommand → u = .u32) (m : Nat) : StateInv ((s.raiseFault c u).consume m) where
  config := h.config
  fault := ⟨iff_of_true rfl hc, fun hcause => hu (hcause.resolve_left hc)⟩
  count32 := h.count32
  count64 := h.count64
  digests := h.digests
  frames := h.frames.trans (Nat.le_add_right _ _)

/-- The host's bytes change nothing the invariant speaks of (R63). -/
theorem StateInv.send {s : State} (h : StateInv s) (bytes : List Byte) : StateInv (s.send bytes) :=
  ⟨h.config, h.fault, h.count32, h.count64, h.digests, h.frames⟩

/-- A block right after reset meets the invariant: its counts hold no value yet (R24, R30). -/
theorem stateInv_resetWith {g : Config} (hg : g.ok = true) : StateInv (State.resetWith g) where
  config := hg
  fault := ⟨by simp, fun _ => rfl⟩
  count32 := fun h => absurd rfl h
  count64 := fun h => absurd rfl h
  digests := rfl
  frames := Nat.le_refl 0

theorem StateInv.step {s t : State} (h : StateInv s) (hstep : step s = .next t) : StateInv t := by
  by_cases hr : Running t
  · obtain ⟨i, rest, -, hc, rfl⟩ := step_completes hstep hr
    exact h.completed_consume hc (frameLength_pos s.config i)
  · obtain ⟨c, u, hc, hu, rfl⟩ := step_faults hstep hr
    exact h.raiseFault_consume hc hu 1

theorem StateInv.move {s : State} (h : StateInv s) (m : Move) : StateInv (s.move m) := by
  cases m with
  | blockStep =>
    rcases move_blockStep_cases s with hstep | hstay
    · exact h.step hstep
    · rw [hstay]
      exact h
  | hostSend bytes => exact h.send bytes
  | hostReset => exact stateInv_resetWith h.config

/-- Settles O23: a step completes an admitted command or enters a fault, and both keep the invariant. -/
theorem stepKeepsTheInvariant : Obligations.StepKeepsTheInvariant :=
  fun _ _ h hstep => h.step hstep

/-- Settles O24, by induction on the history. -/
theorem everyHistoryKeepsTheInvariant : Obligations.EveryHistoryKeepsTheInvariant := by
  intro s ms h
  induction ms generalizing s with
  | nil => exact ⟨h, rfl⟩
  | cons m ms ih =>
    obtain ⟨hinv, hconfig⟩ := ih (s.move m) (h.move m)
    exact ⟨hinv, hconfig.trans (move_config s m)⟩

/-- Settles O22: the default parameters are allowed, and reset meets the invariant for all that are. -/
theorem resetMeetsTheInvariant : Obligations.ResetMeetsTheInvariant :=
  ⟨stateInv_resetWith (by decide), fun _ hg => stateInv_resetWith hg⟩

/-- Settles O14: reset starts CMDIDX at 0, and a step completes its frame or faults. -/
theorem cmdIdxCountsCompletedFrames : Obligations.CmdIdxCountsCompletedFrames :=
  ⟨rfl, fun _ => ⟨rfl, rfl⟩, fun _ _ h => step_cmdIdx h⟩

end Sys2Proof.Safety

/-! ### The frame of each command, and what it reads (10_state.md R29, 20_memory.md R57, R62) -/

namespace Sys2Proof.Machine

open Sys2Proof.Safety

/-- Settles O48: a NEW has no check and so completes. -/
theorem newFrame : Obligations.NewFrame := by
  intro i s t hop h
  obtain ⟨-, ⟨c, hc, -⟩ | ⟨-, rfl⟩⟩ := exec_next_cases h
  · rw [checkOf_new hop] at hc
    cases hc
  · have hemit : emitted i s = [] := emitted_eq_nil (by rw [hop]; decide) s
    exact ⟨fun hu => completed_u64_of_u32 hu s, fun hu => completed_u32_of_u64 hu s, completed_config i s,
      completed_faultReg i s, by rw [completed_response, hemit, List.append_nil], completed_stream i s,
      completed_streamPos i s⟩

/-- Settles O49: a faulting ABSORB writes the fault record alone, and a completed one its own unit's lanes and count. -/
theorem absorbFrame : Obligations.AbsorbFrame := by
  intro i s t hop h
  obtain ⟨hs, ⟨c, -, rfl⟩ | ⟨-, rfl⟩⟩ := exec_next_cases h
  · simp
  · obtain ⟨hlife32, hlife64⟩ := completed_life_of_absorb hop s
    have hemit : emitted i s = [] := emitted_eq_nil (by rw [hop]; decide) s
    exact ⟨fun hu => completed_u64_of_u32 hu s, fun hu => completed_u32_of_u64 hu s, hlife32, hlife64,
      completed_config i s, by rw [completed_response, hemit, List.append_nil], completed_stream i s,
      completed_streamPos i s, fun _ => completed_faultReg i s, fun hn => absurd (running_completed hs) hn⟩

/-- Settles O50: a faulting FINAL writes the fault record alone, and a completed one appends its digest behind what was emitted. -/
theorem finalFrame : Obligations.FinalFrame := by
  intro i s t hop h
  obtain ⟨hs, ⟨c, -, rfl⟩ | ⟨-, rfl⟩⟩ := exec_next_cases h
  · simp
  · obtain ⟨hcount32, hcount64⟩ := completed_count_of_final hop s
    exact ⟨fun hu => completed_u64_of_u32 hu s, fun hu => completed_u32_of_u64 hu s, hcount32, hcount64,
      completed_config i s, by rw [completed_response, List.take_left], completed_stream i s,
      completed_streamPos i s, fun _ => completed_faultReg i s, fun hn => absurd (running_completed hs) hn⟩

/-- The state t, reached from s, as it is when s stands at position n of a stream x, with r emitted and k frames completed. -/
def State.rebase (s : State) (x r : List Byte) (n k : Nat) (t : State) : State :=
  { t with
    stream := x
    streamPos := n
    response := r ++ t.response.drop s.response.length
    cmdIdx := k + (t.cmdIdx - s.cmdIdx) }

section
variable (s t : State) (x r : List Byte) (n k : Nat)

@[simp] theorem State.rebase_config : (s.rebase x r n k t).config = t.config := rfl
@[simp] theorem State.rebase_faultReg : (s.rebase x r n k t).faultReg = t.faultReg := rfl
@[simp] theorem State.rebase_cmdIdx : (s.rebase x r n k t).cmdIdx = k + (t.cmdIdx - s.cmdIdx) := rfl
@[simp] theorem State.rebase_stream : (s.rebase x r n k t).stream = x := rfl
@[simp] theorem State.rebase_streamPos : (s.rebase x r n k t).streamPos = n := rfl
@[simp] theorem State.rebase_response :
    (s.rebase x r n k t).response = r ++ t.response.drop s.response.length := rfl

end

theorem State.rebase_self (s : State) (x r : List Byte) (n k : Nat) :
    s.rebase x r n k s = { s with stream := x, streamPos := n, response := r, cmdIdx := k } := by
  simp [State.rebase]

/-- What a command completes to depends on the streams and CMDIDX only by carrying them along. -/
theorem completed_rebase (i : Instr) (s : State) (x r : List Byte) (n k : Nat) :
    completed i (s.rebase x r n k s) = s.rebase x r n k (completed i s) := by
  have hu32 : (completed i (s.rebase x r n k s)).u32 = (completed i s).u32 := by cases i <;> rfl
  have hu64 : (completed i (s.rebase x r n k s)).u64 = (completed i s).u64 := by cases i <;> rfl
  have hemit : emitted i (s.rebase x r n k s) = emitted i s := by cases i <;> rfl
  exact State.ext_fields (by simp) hu32 hu64 (by simp) (by simp) (by simp) (by simp) (by simp [hemit])

/-- Settles O52: the check and the completion look at neither the streams nor CMDIDX. -/
theorem commandsReadNoStream : Obligations.CommandsReadNoStream := by
  intro i s x r n k
  rw [← State.rebase_self]
  have hcheck : checkOf i (s.rebase x r n k s) = checkOf i s := by cases i <;> rfl
  exact exec_commutes (f := s.rebase x r n k) rfl hcheck (fun _ => rfl) (completed_rebase i s x r n k)

end Sys2Proof.Machine

/-! ### Reset and STATUS (10_state.md R25, R29, R30) -/

namespace Sys2Proof.Machine

open Sys2Proof.Safety

theorem Life.code_le (l : Life) : l.code.toNat ≤ 2 := by cases l <;> decide

theorem Cause.code_le (c : Cause) : c.code.toNat ≤ 5 := by cases c <;> decide

theorem Cause.code_eq_zero_iff (c : Cause) : c.code = 0#4 ↔ c = .none := by cases c <;> decide

theorem Cause.code_le_one_iff (c : Cause) : c.code.toNat ≤ 1 ↔ c = .none ∨ c = .illegalCommand := by cases c <;> decide

theorem unitCode_getLsbD (u : UnitSel) : (unitCode u).getLsbD 0 = decide (u = .u64) := by cases u <;> decide

/-- A field that stands in the high part of two joined words is read there. -/
theorem extractLsb'_append_add {v w : Nat} (hi : BitVec v) (lo : BitVec w) (start len : Nat) :
    (hi ++ lo).extractLsb' (w + start) len = hi.extractLsb' start len := by
  rw [BitVec.extractLsb'_append_eq_of_le (Nat.le_add_right w start), Nat.add_sub_cancel_left]

/-- A bit of a word as a field of width 1. -/
theorem getLsbD_eq_extractLsb' {w : Nat} (x : BitVec w) (i : Nat) : x.getLsbD i = (x.extractLsb' i 1).getLsbD 0 := by
  simp

/-- STATUS above the two LIFE fields: from bit 4 on, a field of HALTED and what stands above it. -/
theorem status_extractLsb'_above_lives (s : State) (start len : Nat) :
    s.status.extractLsb' (2 + (2 + start)) len =
      (0#19 ++ unitCode s.faultReg.funit ++ s.faultReg.cause.code ++ 0#3 ++
        BitVec.ofBool s.faultReg.halted).extractLsb' start len :=
  (extractLsb'_append_add _ _ _ _).trans (extractLsb'_append_add _ _ _ _)

theorem status_life32 (s : State) : s.status.extractLsb' 0 2 = s.u32.life.code :=
  BitVec.extractLsb'_append_eq_right

theorem status_life64 (s : State) : s.status.extractLsb' 2 2 = s.u64.life.code :=
  (extractLsb'_append_add _ _ 0 2).trans BitVec.extractLsb'_append_eq_right

theorem status_reserved_low (s : State) : s.status.extractLsb' 5 3 = 0#3 :=
  (status_extractLsb'_above_lives s 1 3).trans <|
    (extractLsb'_append_add _ _ 0 3).trans BitVec.extractLsb'_append_eq_right

theorem status_cause (s : State) : s.status.extractLsb' 8 4 = s.faultReg.cause.code :=
  (status_extractLsb'_above_lives s 4 4).trans <|
    (extractLsb'_append_add _ _ 3 4).trans <|
    (extractLsb'_append_add _ _ 0 4).trans BitVec.extractLsb'_append_eq_right

theorem status_reserved_high (s : State) : s.status.extractLsb' 13 19 = 0#19 :=
  (status_extractLsb'_above_lives s 9 19).trans <|
    (extractLsb'_append_add _ _ 8 19).trans <|
    (extractLsb'_append_add _ _ 5 19).trans <|
    (extractLsb'_append_add _ _ 1 19).trans BitVec.extractLsb'_append_eq_left

theorem status_halted (s : State) : s.status.getLsbD 4 = s.faultReg.halted := by
  have hfield : s.status.extractLsb' 4 1 = BitVec.ofBool s.faultReg.halted :=
    (status_extractLsb'_above_lives s 0 1).trans BitVec.extractLsb'_append_eq_right
  rw [getLsbD_eq_extractLsb', hfield, BitVec.getLsbD_ofBool]
  rfl

theorem status_funit (s : State) : s.status.getLsbD 12 = decide (s.faultReg.funit = .u64) := by
  have hfield : s.status.extractLsb' 12 1 = unitCode s.faultReg.funit :=
    (status_extractLsb'_above_lives s 8 1).trans <|
      (extractLsb'_append_add _ _ 7 1).trans <|
      (extractLsb'_append_add _ _ 4 1).trans <|
      (extractLsb'_append_add _ _ 0 1).trans BitVec.extractLsb'_append_eq_right
  rw [getLsbD_eq_extractLsb', hfield, unitCode_getLsbD]

/-- STATUS is 0 right after reset, whatever the parameters (R30). -/
theorem status_resetWith (g : Config) : (State.resetWith g).status = 0#32 := by
  change 0#19 ++ unitCode .u32 ++ Cause.none.code ++ 0#3 ++ BitVec.ofBool false ++ Life.uninit.code ++ Life.uninit.code = 0#32
  decide

/-- Settles O20: the state of `State.resetWith`, whatever the parameters. -/
theorem resetLeavesTheResetState : Obligations.ResetLeavesTheResetState := by
  intro s t ht
  obtain ⟨g, rfl⟩ : ∃ g, t = State.resetWith g := ht.elim (fun h => ⟨_, h⟩) (fun h => ⟨_, h⟩)
  have hobserve : (State.resetWith g).observe = ⟨[], 0x00000000#32, 0⟩ := by
    rw [State.observe, status_resetWith, State.resetWith_response, State.resetWith_cmdIdx]
  exact ⟨rfl, rfl, hobserve, rfl, rfl, fun _ => rfl⟩

/-- Settles O21: each field is the slice of STATUS it was put into, and coherence speaks of the fields' codes. -/
theorem statusFieldsStandWhereTheyShould : Obligations.StatusFieldsStandWhereTheyShould := by
  intro s
  rw [status_life32, status_life64, status_halted, status_cause, status_funit]
  refine ⟨rfl, rfl, rfl, rfl, status_reserved_low s, rfl, rfl, status_reserved_high s, Life.code_le _, Life.code_le _, Cause.code_le _, ?_⟩
  intro ⟨hhalted, hfunit⟩
  constructor
  · rw [Cause.code_eq_zero_iff, ← not_iff_not, Bool.not_eq_false]
    exact hhalted
  · intro hcause
    simp [hfunit ((Cause.code_le_one_iff _).mp hcause)]

end Sys2Proof.Machine

/-! ### The command stream and the response stream (20_memory.md R51, R53, R58, R60) -/

namespace Sys2Proof

/-- The bytes behind a frame that is read are those past its length (30_encoding.md R75). -/
theorem drop_frameLength_of_decode {g : Config} {bs rest : List Byte} {i : Instr} (h : decode g bs = .frame i rest) :
    bs.drop (frameLength g i) = rest := by
  rw [(encode_of_decode h).2, ← encode_length, List.drop_left]

theorem frameLength_le_of_decode {g : Config} {bs rest : List Byte} {i : Instr} (h : decode g bs = .frame i rest) :
    frameLength g i ≤ bs.length := by
  rw [(encode_of_decode h).2, ← encode_length, List.length_append]
  exact Nat.le_add_right _ _

/-- A frame that is read is read also with more bytes behind it. -/
theorem decode_append_of_frame {g : Config} {bs rest : List Byte} {i : Instr} (h : decode g bs = .frame i rest)
    (bytes : List Byte) : decode g (bs ++ bytes) = .frame i (rest ++ bytes) := by
  obtain ⟨hwf, hbs⟩ := encode_of_decode h
  rw [hbs, List.append_assoc]
  exact decodeOfEncode g i (rest ++ bytes) hwf

/-- A byte sequence is rejected for its first byte, which is no command's opcode byte (R76). -/
theorem decode_illegal {g : Config} {bs : List Byte} {o : Byte} (h : decode g bs = .illegal o) :
    decodeOpcode o = none ∧ ∃ tl, bs = o :: tl := by
  cases bs with
  | nil => cases h
  | cons b tl =>
    cases hop : decodeOpcode b with
    | none =>
      simp only [decode, hop] at h
      cases h
      exact ⟨hop, tl, rfl⟩
    | some r =>
      obtain ⟨u, op⟩ := r
      obtain rfl := eq_opcodeByte_of_decodeOpcode hop
      cases op with
      | new =>
        rw [decode_new, decodeNew] at h
        split at h <;> cases h
      | absorb =>
        rw [decode_absorb, decodeAbsorb, decodeData] at h
        split at h
        · cases h
        · split at h <;> cases h
      | final =>
        rw [decode_final] at h
        cases h

theorem decode_cons_of_illegal (g : Config) {o : Byte} (h : decodeOpcode o = none) (tl : List Byte) :
    decode g (o :: tl) = .illegal o := by
  simp only [decode, h]

end Sys2Proof

namespace Sys2Proof.Machine

open Sys2Proof.Safety

/-- The state with these unread bytes, at this position of the command stream. -/
def State.atStream (s : State) (x : List Byte) (n : Nat) : State := { s with stream := x, streamPos := n }

section
variable (s : State) (x : List Byte) (n : Nat)

@[simp] theorem State.atStream_config : (s.atStream x n).config = s.config := rfl
@[simp] theorem State.atStream_faultReg : (s.atStream x n).faultReg = s.faultReg := rfl
@[simp] theorem State.atStream_stream : (s.atStream x n).stream = x := rfl
@[simp] theorem State.atStream_streamPos : (s.atStream x n).streamPos = n := rfl

end

/-- A command carries the command stream along: its check and its completion do not look at it (R57). -/
theorem exec_atStream (i : Instr) (s : State) (x : List Byte) (n : Nat) :
    exec i (s.atStream x n) = mapNext (fun t => t.atStream x n) (exec i s) := by
  have hcheck : checkOf i (s.atStream x n) = checkOf i s := by cases i <;> rfl
  have hdone : completed i (s.atStream x n) = (completed i s).atStream x n := by cases i <;> rfl
  exact exec_commutes (f := fun t => t.atStream x n) rfl hcheck (fun _ => rfl) hdone

/-- A command consumes nothing itself and keeps the parameters: the step consumes its frame (R51). -/
theorem exec_keeps_stream {i : Instr} {s t : State} (h : exec i s = .next t) :
    t.config = s.config ∧ t.stream = s.stream ∧ t.streamPos = s.streamPos := by
  obtain ⟨-, ⟨c, -, rfl⟩ | ⟨-, rfl⟩⟩ := exec_next_cases h
  · exact ⟨rfl, rfl, rfl⟩
  · exact ⟨completed_config i s, completed_stream i s, completed_streamPos i s⟩

theorem exec_send {i : Instr} {s t : State} (h : exec i s = .next t) (bytes : List Byte) :
    exec i (s.send bytes) = .next (t.send bytes) := by
  obtain ⟨-, hstream, hpos⟩ := exec_keeps_stream h
  calc exec i (s.send bytes)
      = mapNext (fun u => u.atStream (s.stream ++ bytes) s.streamPos) (exec i s) := exec_atStream i s _ _
    _ = .next (t.atStream (t.stream ++ bytes) t.streamPos) := by rw [h, mapNext, hstream, hpos]
    _ = .next (t.send bytes) := rfl

/-- A sequence of commands answers a next state only through its first command's. -/
theorem execAll_cons_next {i : Instr} {is : List Instr} {s t : State} (h : execAll (i :: is) s = .next t) :
    ∃ u, exec i s = .next u ∧ execAll is u = .next t := by
  rw [execAll] at h
  split at h
  · next u hu => exact ⟨u, hu, h⟩
  · cases h
  · cases h

/-- Commands leave a running block only if they found one: a halted block executes nothing (R204). -/
theorem running_of_execAll {is : List Instr} {s t : State} (h : execAll is s = .next t) (ht : Running t) : Running s := by
  cases is with
  | nil =>
    cases h
    exact ht
  | cons i is =>
    obtain ⟨u, hu, -⟩ := execAll_cons_next h
    exact (exec_next_cases hu).1

theorem execAll_atStream {is : List Instr} {s t : State} (h : execAll is s = .next t) (x : List Byte) (n : Nat) :
    execAll is (s.atStream x n) = .next (t.atStream x n) := by
  induction is generalizing s with
  | nil =>
    cases h
    rfl
  | cons i is ih =>
    obtain ⟨u, hu, hall⟩ := execAll_cons_next h
    rw [execAll, exec_atStream, hu]
    exact ih hall

/-- The step of a block that accepts commands and has an illegal opcode byte before it (R76). -/
theorem step_of_illegal {s : State} {o : Byte} (hs : Running s) (hf : s.fetch = .illegal o) :
    step s = .next (s.illegalCommand.consume 1) := by
  rw [step, if_neg (ne_true_of_eq_false hs), hf]
  rfl

theorem consumedBytes_running {t : State} (h : Running t) (length : Nat) : consumedBytes length t = length :=
  if_neg (ne_true_of_eq_false h)

theorem consumedBytes_halted {t : State} (h : ¬ Running t) (length : Nat) : consumedBytes length t = 1 :=
  if_pos (eq_true_of_ne_false h)

/-- A step consumes no byte past its frame. -/
theorem consumedBytes_le {length : Nat} (h : 0 < length) (t : State) : consumedBytes length t ≤ length := by
  by_cases ht : Running t
  · exact (consumedBytes_running ht length).le
  · rw [consumedBytes_halted ht]
    exact h

/-- A step is the command of the frame it fetches, then the consumption of the frame (R51, R58). -/
theorem step_of_exec {s u : State} {i : Instr} {rest : List Byte} (hf : s.fetch = .frame i rest) (hu : exec i s = .next u) :
    step s = .next (u.consume (consumedBytes (frameLength s.config i) u)) := by
  obtain ⟨hs, -⟩ := exec_next_cases hu
  rw [step, if_neg (ne_true_of_eq_false hs), hf]
  exact congrArg (retire (frameLength s.config i)) hu

/-- What is consumed after a command was unread before it. -/
theorem consume_of_exec {i : Instr} {s u : State} (hu : exec i s = .next u) (m : Nat) :
    u.consume m = u.atStream (s.stream.drop m) (s.streamPos + m) := by
  obtain ⟨-, hstream, hpos⟩ := exec_keeps_stream hu
  rw [State.consume, hstream, hpos, State.atStream]

/-- A command that completes has its whole frame consumed (R51). -/
theorem step_of_exec_running {s u : State} {i : Instr} {rest : List Byte} (hf : s.fetch = .frame i rest)
    (hu : exec i s = .next u) (hr : Running u) :
    step s = .next (u.atStream rest (s.streamPos + frameLength s.config i)) := by
  rw [step_of_exec hf hu, consumedBytes_running hr, consume_of_exec hu, drop_frameLength_of_decode hf]

/-- A command that faults has its opcode byte consumed (R204, log entry 5). -/
theorem step_of_exec_halted {s u : State} {i : Instr} {rest : List Byte} (hf : s.fetch = .frame i rest)
    (hu : exec i s = .next u) (hr : ¬ Running u) :
    step s = .next (u.atStream (s.stream.drop 1) (s.streamPos + 1)) := by
  rw [step_of_exec hf hu, consumedBytes_halted hr, consume_of_exec hu]

/-- Settles O9: a command always answers a next state, and its fault record decides how much of its frame is consumed. -/
theorem stepRunsTheDecodedCommand : Obligations.StepRunsTheDecodedCommand :=
  fun _ _ _ hs hf =>
    ⟨_, exec_running hs, step_of_exec_running hf (exec_running hs), step_of_exec_halted hf (exec_running hs)⟩

/-- A step that leaves the block running has completed the command it fetched. -/
theorem eq_completed_of_step {s t : State} {i : Instr} {rest : List Byte} (h : step s = .next t) (hr : Running t)
    (hf : s.fetch = .frame i rest) :
    t = (completed i s).consume (frameLength s.config i) := by
  obtain ⟨j, rest', hf', -, ht⟩ := step_completes h hr
  rw [hf] at hf'
  cases hf'
  exact ht

/-- Settles O15: the completed command emits its digest if it is a FINAL, otherwise nothing, and a fault emits nothing. -/
theorem onlyCompletedFinalsRespond : Obligations.OnlyCompletedFinalsRespond := by
  intro s t h
  refine ⟨fun rest hf hr => ?_, fun rest hf hr => ?_, fun hno => ?_⟩
  · rw [eq_completed_of_step h hr hf]
    exact ⟨rfl, digest32_length _⟩
  · rw [eq_completed_of_step h hr hf]
    exact ⟨rfl, digest64_length _⟩
  · by_cases hr : Running t
    · obtain ⟨i, rest, hf, -, rfl⟩ := step_completes h hr
      have hop : i.operation ≠ .final := hno.resolve_right (fun hn => hn hr) i rest hf
      rw [State.consume_response, completed_response, emitted_eq_nil hop, List.append_nil]
    · obtain ⟨c, u, -, -, rfl⟩ := step_faults h hr
      rfl

/-- Bytes that are there to be consumed are consumed alike with more bytes behind them. -/
theorem State.send_consume {s : State} {m : Nat} (h : m ≤ s.stream.length) (bytes : List Byte) :
    (s.send bytes).consume m = (s.consume m).send bytes := by
  rw [State.consume, State.send_stream, List.drop_append_of_le_length h]
  rfl

/-- Settles O17: the decoder finds the same frame, and what is consumed of it was there before. -/
theorem stepIgnoresLaterBytes : Obligations.StepIgnoresLaterBytes := by
  intro s t bytes h
  obtain ⟨hs, ⟨o, hf, rfl⟩ | ⟨i, rest, u, hf, hu, rfl⟩⟩ := step_next_cases h
  · obtain ⟨hop, tl, hstream⟩ := decode_illegal hf
    have hfetch : (s.send bytes).fetch = .illegal o := by
      rw [State.fetch, State.send_stream, hstream]
      exact decode_cons_of_illegal _ hop _
    have hone : 1 ≤ s.illegalCommand.stream.length := by
      rw [State.illegalCommand, State.raiseFault_stream, hstream]
      simp
    rw [step_of_illegal (s := s.send bytes) hs hfetch, ← State.send_consume hone]
    rfl
  · have hfetch : (s.send bytes).fetch = .frame i (rest ++ bytes) := decode_append_of_frame hf bytes
    have hlen : consumedBytes (frameLength s.config i) u ≤ u.stream.length := by
      obtain ⟨-, hkept, -⟩ := exec_keeps_stream hu
      rw [hkept]
      exact (consumedBytes_le (frameLength_pos s.config i) u).trans (frameLength_le_of_decode hf)
    rw [step_of_exec hfetch (exec_send hu bytes), ← State.send_consume hlen]
    rfl

/-- A run whose first step answers a next state goes on from there. -/
theorem run_succ_of_step {M : Host.Core} {s t : M.State} (h : M.step s = .next t) (k : Nat) :
    M.run (k + 1) s = M.run k t := by
  rw [Host.Core.run, h]

/-- Settles O18, by induction on the commands: the first frame's step leaves the state from which the other commands, which read no
unread byte, run as `execAll` has them. -/
theorem streamRunsItsCommandsInOrder : Obligations.StreamRunsItsCommandsInOrder := by
  intro is s t rest hwf hstream hall hs ht
  induction is generalizing s t with
  | nil =>
    cases hall
    rw [← show s.stream = rest from hstream]
    rfl
  | cons i is ih =>
    have hfetch : s.fetch = .frame i (encodeAll s.config is ++ rest) := by
      rw [State.fetch, hstream, encodeAll, List.flatMap_cons, List.append_assoc]
      exact decodeOfEncode _ i _ (hwf i List.mem_cons_self)
    obtain ⟨u, hexec, hall⟩ := execAll_cons_next hall
    have hu : Running u := running_of_execAll hall ht
    have hconfig : u.config = s.config := (exec_keeps_stream hexec).1
    have hih := ih _ _ (fun j hj => hconfig ▸ hwf j (List.mem_cons_of_mem i hj)) (by simp [hconfig])
      (execAll_atStream hall (encodeAll s.config is ++ rest) (s.streamPos + frameLength s.config i)) hu ht
    rw [List.length_cons, run_succ_of_step (M := Sys2Proof.core) (step_of_exec_running hfetch hexec hu), hih]
    simp [State.atStream, encodeAll, hconfig, encode_length, Nat.add_assoc]

end Sys2Proof.Machine

/-! ### The opcode map and the pseudo-instructions (30_encoding.md R71, R76, R80, R81) -/

namespace Sys2Proof

open Sys2Proof.Machine Sys2Proof.Safety

/-- Every value of the field V names a unit (R71). -/
theorem unitCode_surjective : Function.Surjective unitCode := by
  have hbit : ∀ v : BitVec 1, v = unitCode .u32 ∨ v = unitCode .u64 := by decide
  intro v
  exact (hbit v).elim (fun h => ⟨.u32, h.symm⟩) (fun h => ⟨.u64, h.symm⟩)

/-- Every value of the field OP but 00 names an operation (R71). -/
theorem exists_operationCode_iff (v : BitVec 2) : (∃ op, operationCode op = v) ↔ v ≠ 0#2 := by
  have hfield : ∀ v : BitVec 2, v = 0#2 ∨ v = operationCode .new ∨ v = operationCode .absorb ∨ v = operationCode .final := by
    decide
  constructor
  · rintro ⟨op, rfl⟩
    cases op <;> decide
  · intro h
    rcases hfield v with h0 | h1 | h2 | h3
    · exact absurd h0 h
    · exact ⟨.new, h1.symm⟩
    · exact ⟨.absorb, h2.symm⟩
    · exact ⟨.final, h3.symm⟩

/-- An opcode byte names the unit and the operation that its fields spell (R71). -/
theorem decodeOpcode_eq_some_iff {o : Byte} {u : UnitSel} {op : Operation} :
    decodeOpcode o = some (u, op) ↔
      o.extractLsb' 5 3 = 0#3 ∧ o.extractLsb' 4 1 = unitCode u ∧ o.extractLsb' 2 2 = 0#2 ∧
        o.extractLsb' 0 2 = operationCode op := by
  constructor
  · intro h
    obtain rfl := eq_opcodeByte_of_decodeOpcode h
    cases u <;> cases op <;> decide
  · rintro ⟨hhigh, hunit, hlow, hop⟩
    rw [decodeOpcode, hhigh, hunit, hlow, hop]
    cases u <;> cases op <;> decide

/-- An opcode byte names nothing exactly when a reserved bit is set or OP is 00 (R71). -/
theorem decodeOpcode_eq_none_iff {o : Byte} :
    decodeOpcode o = none ↔ o.extractLsb' 5 3 ≠ 0#3 ∨ o.extractLsb' 2 2 ≠ 0#2 ∨ o.extractLsb' 0 2 = 0#2 := by
  constructor
  · intro hnone
    by_contra! hfields
    obtain ⟨hhigh, hlow, hop⟩ := hfields
    obtain ⟨u, hu⟩ := unitCode_surjective (o.extractLsb' 4 1)
    obtain ⟨op, hcode⟩ := (exists_operationCode_iff _).mpr hop
    have hsome := decodeOpcode_eq_some_iff.mpr ⟨hhigh, hu.symm, hlow, hcode.symm⟩
    exact Option.some_ne_none _ (hsome.symm.trans hnone)
  · intro hfields
    refine Option.eq_none_iff_forall_ne_some.mpr fun ⟨u, op⟩ hsome => ?_
    obtain ⟨hhigh, -, hlow, hop⟩ := decodeOpcode_eq_some_iff.mp hsome
    rcases hfields with h | h | h
    · exact h hhigh
    · exact h hlow
    · exact (exists_operationCode_iff _).mp ⟨op, hop.symm⟩ h

/-- Settles O4: the fields decide what the opcode byte names, and a byte that names nothing is illegal whatever follows. -/
theorem opcodeFields : Obligations.OpcodeFields := by
  refine fun o => ⟨fun u op => decodeOpcode_eq_some_iff, ?_⟩
  rw [← decodeOpcode_eq_none_iff]
  exact ⟨fun h g rest => decode_cons_of_illegal g h rest, fun h => (decode_illegal (h defaultConfig [])).1⟩

/-- A byte outside the opcode map names nothing (R76). -/
theorem decodeOpcode_eq_none_of_notMem {o : Byte} (h : o ∉ [0x01#8, 0x02#8, 0x03#8, 0x11#8, 0x12#8, 0x13#8]) :
    decodeOpcode o = none := by
  refine Option.eq_none_iff_forall_ne_some.mpr fun ⟨u, op⟩ hsome => h ?_
  rw [eq_opcodeByte_of_decodeOpcode hsome]
  cases u <;> cases op <;> decide

/-- Settles O5: the map is the decoder's and the encoder's own, and a step on any other byte is the fault entry of an illegal opcode
byte. -/
theorem opcodeMapIsExactlySix : Obligations.OpcodeMapIsExactlySix := by
  refine ⟨decodeOpcode_opcodeByte .u32 .new, decodeOpcode_opcodeByte .u32 .absorb, decodeOpcode_opcodeByte .u32 .final,
    decodeOpcode_opcodeByte .u64 .new, decodeOpcode_opcodeByte .u64 .absorb, decodeOpcode_opcodeByte .u64 .final,
    fun g seed data => ⟨rfl, rfl, rfl, rfl, rfl, rfl⟩, ?_⟩
  intro o rest s hs hstream hmap
  have hfetch : s.fetch = .illegal o := by
    rw [State.fetch, hstream, decode_cons_of_illegal s.config (decodeOpcode_eq_none_of_notMem hmap)]
  have hrest : s.stream.drop 1 = rest := by rw [hstream, List.drop_one, List.tail_cons]
  rw [step_of_illegal hs hfetch, ← hrest]
  rfl

/-- Settles O6: the six byte sequences are the encodings of their commands, and the three bytes have a reserved bit set or OP = 00. -/
theorem workedEncodingsDecode : Obligations.WorkedEncodingsDecode :=
  ⟨decodeOfEncode defaultConfig (.new32 0x12345678) [] rfl,
    decodeOfEncode defaultConfig (.new64 1) [] rfl,
    decodeOfEncode defaultConfig (.absorb32 [0x61, 0x62, 0x63]) [] (by decide),
    decodeOfEncode defaultConfig (.absorb64 []) [] (by decide),
    decodeOfEncode defaultConfig .final32 [] rfl,
    decodeOfEncode defaultConfig .final64 [] rfl,
    decode_cons_of_illegal _ (decodeOpcode_eq_none_of_notMem (by decide)) [],
    decode_cons_of_illegal _ (decodeOpcode_eq_none_of_notMem (by decide)) [],
    decode_cons_of_illegal _ (decodeOpcode_eq_none_of_notMem (by decide)) []⟩

end Sys2Proof

namespace Sys2Proof.Machine

/-- The rounded-up quotient in the two forms that the model and R80 give it. -/
theorem add_sub_one_div_eq {step : Nat} (h : 1 ≤ step) (n : Nat) :
    (n + step - 1) / step = n / step + if n % step = 0 then 0 else 1 := by
  have hlt : step - 1 < step := by omega
  rw [Nat.add_sub_assoc h, Nat.add_div h, Nat.div_eq_of_lt hlt, Nat.mod_eq_of_lt hlt, Nat.add_zero]
  congr 1
  split <;> split <;> omega

theorem chunks_length {step : Nat} (h : 1 ≤ step) (bytes : List Byte) :
    (chunks step bytes).length = bytes.length / step + if bytes.length % step = 0 then 0 else 1 := by
  rw [chunks, List.length_map, List.length_range, add_sub_one_div_eq h]

/-- The chunks reach the end of the bytes. -/
theorem length_le_chunks_length_mul {step : Nat} (h : 1 ≤ step) (bytes : List Byte) :
    bytes.length ≤ (chunks step bytes).length * step := by
  have hsplit := Nat.div_add_mod' bytes.length step
  have hmod := Nat.mod_lt bytes.length h
  rw [chunks_length h, Nat.add_mul]
  split <;> omega

/-- The first m pieces of step bytes are together the first m * step bytes. -/
theorem flatten_map_take_drop (step m : Nat) (bytes : List Byte) :
    ((List.range m).map fun q => (bytes.drop (q * step)).take step).flatten = bytes.take (m * step) := by
  induction m with
  | zero => simp
  | succ m ih =>
    rw [List.range_succ, List.map_append, List.flatten_append, ih, Nat.succ_mul, List.take_add]
    simp

theorem chunks_flatten {step : Nat} (h : 1 ≤ step) (bytes : List Byte) : (chunks step bytes).flatten = bytes := by
  have hend := length_le_chunks_length_mul h bytes
  rw [chunks, List.length_map, List.length_range] at hend
  rw [chunks, flatten_map_take_drop, List.take_of_length_le hend]

/-- Chunk q ends where the bytes end, if step bytes from its start on are too many (R80). -/
theorem chunks_getElem? {step q : Nat} {bytes : List Byte} (h : q < (chunks step bytes).length) :
    (chunks step bytes)[q]? = some ((bytes.drop (q * step)).take (min ((q + 1) * step) bytes.length - q * step)) := by
  have hq : q < (bytes.length + step - 1) / step := by simpa [chunks] using h
  rw [chunks, List.getElem?_map, List.getElem?_range hq, Option.map_some, Option.some_inj, List.take_eq_take_iff,
    List.length_drop, Nat.succ_mul]
  omega

/-- Settles O55: `hash` and a step of 0 as R80 writes them, and for any other step the model's chunks. -/
theorem pseudoInstructionsExpand : Obligations.PseudoInstructionsExpand := by
  refine ⟨fun _ _ _ => rfl, fun _ _ => rfl, fun u step bytes hstep => ⟨chunks step bytes, ?_, chunks_flatten hstep bytes,
    chunks_length hstep bytes, fun q hq => ⟨chunks_getElem? hq, ?_⟩⟩⟩
  · exact if_neg (Nat.one_le_iff_ne_zero.mp hstep)
  · rw [List.getD_eq_getElem?_getD, chunks_getElem? hq, Option.getD_some, List.length_take, List.length_drop]
    omega

end Sys2Proof.Machine

/-! ### Lane by lane: the mixing steps (41_mixer_4x32.md R101 to R103, R107; 42_mixer_2x64.md R131, R133, R136) -/

namespace Sys2Proof

theorem Quad.ext_get {α : Type} {a b : Quad α} (h : ∀ i, a.get i = b.get i) : a = b := by
  cases a
  cases b
  rw [Quad.mk.injEq]
  exact ⟨h .one, h .two, h .three, h .four⟩

theorem Duo.ext_get {α : Type} {a b : Duo α} (h : ∀ i, a.get i = b.get i) : a = b := by
  cases a
  cases b
  rw [Duo.mk.injEq]
  exact ⟨h .one, h .two⟩

@[simp] theorem Quad.get_fill {α : Type} (v : α) (i : Lane4) : (Quad.fill v).get i = v := by cases i <;> rfl

@[simp] theorem Duo.get_fill {α : Type} (v : α) (i : Lane2) : (Duo.fill v).get i = v := by cases i <;> rfl

theorem Lane4.before_after {b : Nat} (h : b < 4) : (Lane4.after b).before = b := by
  interval_cases b <;> rfl

theorem Lane4.before_after_le (b : Nat) : (Lane4.after b).before ≤ b := by
  match b with
  | 0 => exact Nat.le_refl 0
  | 1 => exact Nat.le_refl 1
  | 2 => exact Nat.le_refl 2
  | n + 3 => exact Nat.le_add_left 3 n

theorem Lane2.before_after_le (b : Nat) : (Lane2.after b).before ≤ b := by
  match b with
  | 0 => exact Nat.le_refl 0
  | n + 1 => exact Nat.le_add_left 1 n

/-- A pass over the lanes of U32 whose step changes its own lane alone changes each lane once. -/
theorem Lane4.get_foldl_all {α : Type} {f : Quad α → Lane4 → Quad α} {v : Lane4 → α → α}
    (hsame : ∀ q i, (f q i).get i = v i (q.get i)) (hother : ∀ q i j, j ≠ i → (f q i).get j = q.get j)
    (q : Quad α) (i : Lane4) : (Lane4.all.foldl f q).get i = v i (q.get i) := by
  cases i <;> simp [Lane4.all, hsame, hother]

/-- A pass over the lanes of U64 whose step changes its own lane alone changes each lane once. -/
theorem Lane2.get_foldl_all {α : Type} {f : Duo α → Lane2 → Duo α} {v : Lane2 → α → α}
    (hsame : ∀ q i, (f q i).get i = v i (q.get i)) (hother : ∀ q i j, j ≠ i → (f q i).get j = q.get j)
    (q : Duo α) (i : Lane2) : (Lane2.all.foldl f q).get i = v i (q.get i) := by
  cases i <;> simp [Lane2.all, hsame, hother]

end Sys2Proof

namespace Sys2Proof.Machine

/-- The mix of a zero k word is 0 (R101, R131). -/
@[simp] theorem kmix_zero {w : Nat} (here next : LaneConsts w) : kmix here next 0#w = 0#w := by simp [kmix]

@[simp] theorem kmix32_zero (g : Config) (i : Lane4) : kmix32 g i 0#32 = 0#32 := kmix_zero _ _

@[simp] theorem kmix64_zero (g : Config) (i : Lane2) : kmix64 g i 0#64 = 0#64 := kmix_zero _ _

@[simp] theorem primary32_get_same (g : Config) (i : Lane4) (k : Word32) (h : Quad Word32) :
    (primary32 g i k h).get i = h.get i ^^^ kmix32 g i k := Quad.get_set_same h i _

theorem primary32_get_other (g : Config) {i j : Lane4} (k : Word32) (h : Quad Word32) (hj : j ≠ i) :
    (primary32 g i k h).get j = h.get j := Quad.get_set_other h i j _ hj

@[simp] theorem primary64_get_same (g : Config) (i : Lane2) (k : Word64) (h : Duo Word64) :
    (primary64 g i k h).get i = h.get i ^^^ kmix64 g i k := Duo.get_set_same h i _

theorem primary64_get_other (g : Config) {i j : Lane2} (k : Word64) (h : Duo Word64) (hj : j ≠ i) :
    (primary64 g i k h).get j = h.get j := Duo.get_set_other h i j _ hj

/-- Settles O25: `kmix32` takes the constants of a lane and its successor, and the primary mix writes its own lane. -/
theorem primaryMix32 : Obligations.PrimaryMix32 :=
  fun g k h => ⟨rfl, rfl, rfl, rfl, fun i => ⟨primary32_get_same g i k h, fun _ hj => primary32_get_other g k h hj⟩⟩

/-- Settles O26: lane 1 is written first, so lane 4 finds it new, and each other lane finds its successor not yet written. -/
theorem fullBlock32 : Obligations.FullBlock32 := by
  intro g data h j n1 n2 n3 n4 h1 h2 h3 h4
  subst h4 h3 h2 h1
  rfl

/-- The tail step lane by lane: a lane that received a byte gets the primary mix (R103). -/
theorem tail32_get (g : Config) (data : List Byte) (base t : Nat) (h : Quad Word32) (i : Lane4) :
    (tail32 g data base t h).get i =
      if 4 * i.before < t then h.get i ^^^ kmix32 g i ((tailWords32 data base t).get i) else h.get i := by
  refine Lane4.get_foldl_all (v := fun i x => if 4 * i.before < t then x ^^^ kmix32 g i ((tailWords32 data base t).get i) else x)
    (fun q i => ?_) (fun q i j hj => ?_) h i
  · rw [tailLane32, apply_ite (fun q : Quad Word32 => q.get i), primary32_get_same]
  · rw [tailLane32, apply_ite (fun q : Quad Word32 => q.get j), primary32_get_other _ _ _ hj, ite_self]

/-- The tail step of U64 lane by lane (R133). -/
theorem tail64_get (g : Config) (data : List Byte) (base t : Nat) (h : Duo Word64) (i : Lane2) :
    (tail64 g data base t h).get i =
      if 8 * i.before < t then h.get i ^^^ kmix64 g i ((tailWords64 data base t).get i) else h.get i := by
  refine Lane2.get_foldl_all (v := fun i x => if 8 * i.before < t then x ^^^ kmix64 g i ((tailWords64 data base t).get i) else x)
    (fun q i => ?_) (fun q i j hj => ?_) h i
  · rw [tailLane64, apply_ite (fun q : Duo Word64 => q.get i), primary64_get_same]
  · rw [tailLane64, apply_ite (fun q : Duo Word64 => q.get j), primary64_get_other _ _ _ hj, ite_self]

theorem tailWords32_succ (data : List Byte) (base t : Nat) :
    tailWords32 data base (t + 1) = tailByte32 data base (tailWords32 data base t) t := by
  simp [tailWords32, List.range_succ]

theorem tailWords64_succ (data : List Byte) (base t : Nat) :
    tailWords64 data base (t + 1) = tailByte64 data base (tailWords64 data base t) t := by
  simp [tailWords64, List.range_succ]

/-- The k word of a lane before which the tail ends is still 0 (R103). -/
theorem tailWords32_get_eq_zero (data : List Byte) (base : Nat) {t : Nat} {i : Lane4} (h : t ≤ 4 * i.before) :
    (tailWords32 data base t).get i = 0#32 := by
  induction t with
  | zero => exact Quad.get_fill _ _
  | succ t ih =>
    have hlane : i ≠ Lane4.after (t / 4) := by
      rintro rfl
      have hle := Lane4.before_after_le (t / 4)
      omega
    rw [tailWords32_succ, tailByte32, Quad.get_set_other _ _ _ _ hlane, ih (by omega)]

/-- The k word of a lane of U64 before which the tail ends is still 0 (R133). -/
theorem tailWords64_get_eq_zero (data : List Byte) (base : Nat) {t : Nat} {i : Lane2} (h : t ≤ 8 * i.before) :
    (tailWords64 data base t).get i = 0#64 := by
  induction t with
  | zero => exact Duo.get_fill _ _
  | succ t ih =>
    have hlane : i ≠ Lane2.after (t / 8) := by
      rintro rfl
      have hle := Lane2.before_after_le (t / 8)
      omega
    rw [tailWords64_succ, tailByte64, Duo.get_set_other _ _ _ _ hlane, ih (by omega)]

/-- The tail step without the affected test (R107). -/
theorem tail32_get_eq_xor (g : Config) (data : List Byte) (base t : Nat) (h : Quad Word32) (i : Lane4) :
    (tail32 g data base t h).get i = h.get i ^^^ kmix32 g i ((tailWords32 data base t).get i) := by
  rw [tail32_get]
  split
  · rfl
  · next hn => rw [tailWords32_get_eq_zero data base (Nat.le_of_not_lt hn), kmix32_zero, BitVec.xor_zero]

/-- The tail step of U64 without the affected test (R136). -/
theorem tail64_get_eq_xor (g : Config) (data : List Byte) (base t : Nat) (h : Duo Word64) (i : Lane2) :
    (tail64 g data base t h).get i = h.get i ^^^ kmix64 g i ((tailWords64 data base t).get i) := by
  rw [tail64_get]
  split
  · rfl
  · next hn => rw [tailWords64_get_eq_zero data base (Nat.le_of_not_lt hn), kmix64_zero, BitVec.xor_zero]

/-- Settles O35: a lane that received no byte has a zero k word, whose mix is 0. -/
theorem tailMayMixEveryLane : Obligations.TailMayMixEveryLane :=
  ⟨kmix32_zero, kmix64_zero, fun g data base t h _ => tail32_get_eq_xor g data base t h,
    fun g data base t h _ => tail64_get_eq_xor g data base t h⟩

/-- Byte p of the sixteen that four k words hold, at its little-endian position (R103). -/
def quadByte (k : Quad Word32) (p : Nat) : Byte := (k.get (Lane4.after (p / 4))).extractLsb' (8 * (p % 4)) 8

/-- One tail byte changes the byte at its own place and no other. -/
theorem quadByte_tailByte32 (data : List Byte) (base : Nat) (k : Quad Word32) {m p : Nat} (hm : m < 16) (hp : p < 16) :
    quadByte (tailByte32 data base k m) p =
      if p = m then quadByte k p ^^^ dataByte data (base + m) else quadByte k p := by
  unfold quadByte tailByte32
  by_cases hlane : p / 4 = m / 4
  · have hplace : p % 4 = m % 4 ↔ p = m := by omega
    simp only [hlane, Quad.get_set_same, ← hplace]
    exact extract_xor_shifted_byte 4 _ _ _ _ (Nat.mod_lt m (by decide)) (Nat.mod_lt p (by decide))
  · have hne : Lane4.after (p / 4) ≠ Lane4.after (m / 4) := by
      intro heq
      have hbefore := congrArg Lane4.before heq
      rw [Lane4.before_after (by omega), Lane4.before_after (by omega)] at hbefore
      exact hlane hbefore
    have hpm : p ≠ m := fun heq => hlane (heq ▸ rfl)
    rw [Quad.get_set_other _ _ _ _ hne, if_neg hpm]

/-- The k words hold the tail's bytes and zeros behind them (R103). -/
theorem quadByte_tailWords32 (data : List Byte) (base : Nat) {t p : Nat} (ht : t ≤ 16) (hp : p < 16) :
    quadByte (tailWords32 data base t) p = if p < t then dataByte data (base + p) else 0#8 := by
  induction t with
  | zero => simp [quadByte, tailWords32]
  | succ t ih =>
    rw [tailWords32_succ, quadByte_tailByte32 _ _ _ (by omega) hp, ih (by omega)]
    rcases lt_trichotomy p t with hlt | rfl | hgt
    · rw [if_neg hlt.ne, if_pos hlt, if_pos (by omega)]
    · rw [if_pos rfl, if_neg (lt_irrefl p), if_pos (by omega), BitVec.zero_xor]
    · rw [if_neg hgt.ne', if_neg (by omega), if_neg (by omega)]

/-- Settles O27: the bytes by induction on t, the lanes each on its own. -/
theorem tailStep32 : Obligations.TailStep32 :=
  fun g data base t h ht =>
    ⟨fun _ hp => quadByte_tailWords32 data base (Nat.le_succ_of_le ht) hp, tail32_get g data base t h⟩

end Sys2Proof.Machine

/-! ### NEW32, and ABSORB with its checks (41_mixer_4x32.md R104 to R106) -/

namespace Sys2Proof.Machine

open Sys2Proof.Safety

/-- An admitted command of a running block completes. -/
theorem exec_completes {i : Instr} {s : State} (hs : Running s) (hc : checkOf i s = none) :
    exec i s = .next (completed i s) := by
  rw [exec_running hs, hc, guarded]

/-- A command of a running block whose check gives a cause faults with it. -/
theorem exec_faults {i : Instr} {s : State} {c : Cause} (hs : Running s) (hc : checkOf i s = some c) :
    exec i s = .next (s.raiseFault c i.unit) := by
  rw [exec_running hs, hc, guarded]

section
variable {L : Type} (g : Config) {v : HashUnit L} {n : Nat}

theorem absorbCheck_of_uninit (h : v.life = .uninit) : absorbCheck g v n = some .notInitialised := by
  rw [absorbCheck, h]

theorem absorbCheck_of_finalized (h : v.life = .finalized) : absorbCheck g v n = some .absorbAfterFinal := by
  rw [absorbCheck, h]

theorem absorbCheck_of_overflow (h : v.life = .active) (ho : v.count + n > 2 ^ g.countWidth - 1) :
    absorbCheck g v n = some .countOverflow := by
  rw [absorbCheck, h]
  exact if_pos (decide_eq_true ho)

theorem absorbCheck_of_takes (h : TakesAbsorb g v n) : absorbCheck g v n = none := by
  obtain ⟨hlife, hcount⟩ := h
  rw [absorbCheck, hlife]
  exact if_neg (by simpa [countOverflows] using hcount)

end

/-- A unit that takes an ABSORB32 completes it. -/
theorem exec_absorb32_of_takes {s : State} {data : List Byte} (hs : Running s) (h : TakesAbsorb s.config s.u32 data.length) :
    exec (.absorb32 data) s = .next (s.setU32 (absorbUnit32 s.config data s.u32)).complete :=
  exec_completes hs (absorbCheck_of_takes s.config h)

/-- A unit that takes an ABSORB64 completes it. -/
theorem exec_absorb64_of_takes {s : State} {data : List Byte} (hs : Running s) (h : TakesAbsorb s.config s.u64 data.length) :
    exec (.absorb64 data) s = .next (s.setU64 (absorbUnit64 s.config data s.u64)).complete :=
  exec_completes hs (absorbCheck_of_takes s.config h)

/-- The fields of STATUS above LIFE32 mirror U64's life and the fault record (R25). -/
theorem status_above_life32_congr {s t : State} (h64 : t.u64.life = s.u64.life) (hfault : t.faultReg = s.faultReg) :
    t.status.extractLsb' 2 30 = s.status.extractLsb' 2 30 := by
  have hslice (s : State) : s.status.extractLsb' 2 30 =
      0#19 ++ unitCode s.faultReg.funit ++ s.faultReg.cause.code ++ 0#3 ++ BitVec.ofBool s.faultReg.halted ++
        s.u64.life.code := BitVec.extractLsb'_append_eq_left
  rw [hslice, hslice, h64, hfault]

/-- Settles O28: NEW32 has no check, and what it completes to differs in U32 and CMDIDX alone. -/
theorem new32Effect : Obligations.New32Effect :=
  fun seed s hs =>
    ⟨completed (.new32 seed) s, exec_completes hs rfl, rfl, status_life32 _, status_above_life32_congr rfl rfl⟩

/-- Settles O29: each clause fixes the outcome of the admission check. -/
theorem absorb32Effect : Obligations.Absorb32Effect := by
  intro data s hs
  refine ⟨fun h => ?_, fun h => ?_, fun h ho => ?_, fun h => ?_⟩
  · exact exec_faults hs (absorbCheck_of_uninit s.config h)
  · exact exec_faults hs (absorbCheck_of_finalized s.config h)
  · exact exec_faults hs (absorbCheck_of_overflow s.config h ho)
  · rw [exec_absorb32_of_takes hs h, absorbUnit32, h.1]
    rfl

/-- A tail of no bytes changes no lane. -/
theorem tail32_zero (g : Config) (data : List Byte) (base : Nat) (h : Quad Word32) : tail32 g data base 0 h = h :=
  Quad.ext_get fun i => by rw [tail32_get, if_neg (Nat.not_lt_zero _)]

theorem tail64_zero (g : Config) (data : List Byte) (base : Nat) (h : Duo Word64) : tail64 g data base 0 h = h :=
  Duo.ext_get fun i => by rw [tail64_get, if_neg (Nat.not_lt_zero _)]

/-- A chunk of no bytes leaves the unit as it was (R106). -/
@[simp] theorem absorbUnit32_nil (g : Config) (v : HashUnit (Quad Word32)) : absorbUnit32 g [] v = v := by
  have hlanes : absorbLanes32 g [] v.lanes = v.lanes := tail32_zero g [] 0 v.lanes
  rw [absorbUnit32, hlanes]
  rfl

/-- A chunk of no bytes leaves U64 as it was (R136). -/
@[simp] theorem absorbUnit64_nil (g : Config) (v : HashUnit (Duo Word64)) : absorbUnit64 g [] v = v := by
  have hlanes : absorbLanes64 g [] v.lanes = v.lanes := tail64_zero g [] 0 v.lanes
  rw [absorbUnit64, hlanes]
  rfl

/-- Settles O36: the chunk has no block and an empty tail. -/
theorem zeroLengthAbsorbOnlyCounts : Obligations.ZeroLengthAbsorbOnlyCounts := by
  refine ⟨fun s hs h => ?_, fun s hs h => ?_⟩
  · rw [exec_absorb32_of_takes (data := []) hs h, absorbUnit32_nil]
    rfl
  · rw [exec_absorb64_of_takes (data := []) hs h, absorbUnit64_nil]
    rfl

end Sys2Proof.Machine

/-! ### Aligned chunking (41_mixer_4x32.md R108) -/

namespace Sys2Proof.Machine

open Sys2Proof.Safety

/-- A command that answers a next state is followed by the other commands from there. -/
theorem execAll_cons_of_next {i : Instr} {s u : State} (h : exec i s = .next u) (is : List Instr) :
    execAll (i :: is) s = execAll is u := by
  rw [execAll, h]

/-- The blocks of a field whose first part is m whole blocks are the blocks of its first part, then those of its second, for a block step
that reads its own block alone. -/
theorem foldl_blocks_append {σ : Type} {step : List Byte → σ → Nat → σ} {a b : List Byte} {m : Nat}
    (hleft : ∀ x, ∀ j < m, step (a ++ b) x j = step a x j) (hright : ∀ x j, step (a ++ b) x (m + j) = step b x j)
    (x : σ) (n : Nat) :
    (List.range (m + n)).foldl (step (a ++ b)) x = (List.range n).foldl (step b) ((List.range m).foldl (step a) x) := by
  have hfirst : (List.range m).foldl (step (a ++ b)) x = (List.range m).foldl (step a) x :=
    List.foldl_ext _ _ x fun y j hj => hleft y j (List.mem_range.mp hj)
  simp only [List.range_add, List.foldl_append, List.foldl_map, hright, hfirst]

section
variable (g : Config) {a : List Byte} (b : List Byte) {m : Nat} (ha : a.length = 16 * m)
include ha

/-- A read inside block j of a field of whole blocks, with more data behind the field. -/
theorem dataRead_block_append_left (w : Nat) {j o n : Nat} (hj : j < m) (ho : o + n ≤ 16) :
    dataRead w (a ++ b) (blockBytes * j + o) n = dataRead w a (blockBytes * j + o) n :=
  dataRead_append_left w a b _ n (by rw [blockBytes]; omega)

/-- Block m + j behind a field of m whole blocks is block j of what follows the field. -/
theorem dataRead_block_append_right (w j o n : Nat) :
    dataRead w (a ++ b) (blockBytes * (m + j) + o) n = dataRead w b (blockBytes * j + o) n := by
  rw [← dataRead_append_right w a b, ha, blockBytes, Nat.mul_add, Nat.add_assoc]

theorem block32_append_left (h : Quad Word32) {j : Nat} (hj : j < m) : block32 g (a ++ b) h j = block32 g a h j := by
  have hread (o : Nat) (ho : o + 4 ≤ 16) := dataRead_block_append_left b ha 32 hj ho
  have hread0 : dataRead 32 (a ++ b) (blockBytes * j) 4 = dataRead 32 a (blockBytes * j) 4 := hread 0 (by decide)
  simp only [block32, blockWords32, hread0, hread 4 (by decide), hread 8 (by decide), hread 12 (by decide)]

theorem block32_append_right (h : Quad Word32) (j : Nat) : block32 g (a ++ b) h (m + j) = block32 g b h j := by
  have hread0 : dataRead 32 (a ++ b) (blockBytes * (m + j)) 4 = dataRead 32 b (blockBytes * j) 4 :=
    dataRead_block_append_right b ha 32 j 0 4
  simp only [block32, blockWords32, hread0, dataRead_block_append_right b ha]

end

theorem tail32_append_right (g : Config) (a b : List Byte) (base t : Nat) (h : Quad Word32) :
    tail32 g (a ++ b) (a.length + base) t h = tail32 g b base t h := by
  have hstep : tailByte32 (a ++ b) (a.length + base) = tailByte32 b base := by
    funext k p
    rw [tailByte32, tailByte32, Nat.add_assoc, dataByte_append_right]
  rw [tail32, tail32, tailWords32, tailWords32, hstep]

/-- A chunk of m whole blocks has no tail. -/
theorem absorbLanes32_of_aligned (g : Config) {a : List Byte} {m : Nat} (ha : a.length = 16 * m) (h : Quad Word32) :
    absorbLanes32 g a h = (List.range m).foldl (block32 g a) h := by
  have hfull : a.length / blockBytes = m := by rw [blockBytes]; omega
  have htail : a.length % blockBytes = 0 := by rw [blockBytes]; omega
  simp only [absorbLanes32, hfull, htail, tail32_zero]

/-- Behind a chunk of whole blocks the rest of the data is absorbed as a chunk of its own. -/
theorem absorbLanes32_append (g : Config) {a : List Byte} (b : List Byte) (ha : a.length % 16 = 0) (h : Quad Word32) :
    absorbLanes32 g (a ++ b) h = absorbLanes32 g b (absorbLanes32 g a h) := by
  obtain ⟨m, hm⟩ : ∃ m, a.length = 16 * m := ⟨a.length / 16, by omega⟩
  have hfull : (a ++ b).length / blockBytes = m + b.length / blockBytes := by
    rw [List.length_append, blockBytes]; omega
  have htail : (a ++ b).length % blockBytes = b.length % blockBytes := by
    rw [List.length_append, blockBytes]; omega
  have hbase : blockBytes * (m + b.length / blockBytes) = a.length + blockBytes * (b.length / blockBytes) := by
    rw [Nat.mul_add, hm, blockBytes]
  rw [absorbLanes32_of_aligned g hm]
  simp only [absorbLanes32, hfull, htail, hbase, tail32_append_right]
  rw [foldl_blocks_append (fun x j hj => block32_append_left g b hm x hj) (block32_append_right g b hm)]

/-- The first of some aligned chunks is aligned or the last. -/
theorem alignedChunks_cons {c : List Byte} {cs : List (List Byte)} (h : alignedChunks (c :: cs)) :
    (c.length % 16 = 0 ∨ cs = []) ∧ alignedChunks cs := by
  cases cs with
  | nil => exact ⟨.inr rfl, fun _ hc => absurd hc List.not_mem_nil⟩
  | cons d ds =>
    rw [alignedChunks, List.dropLast_cons_cons, List.forall_mem_cons] at h
    exact ⟨.inl h.1, h.2⟩

/-- The unit after aligned chunks, the first absorbed before the others. -/
theorem absorbUnit32_flatten_cons (g : Config) {c : List Byte} {cs : List (List Byte)} (h : c.length % 16 = 0 ∨ cs = [])
    (v : HashUnit (Quad Word32)) :
    absorbUnit32 g (c :: cs).flatten v = absorbUnit32 g cs.flatten (absorbUnit32 g c v) := by
  rcases h with hc | rfl
  · simp only [List.flatten_cons, absorbUnit32, absorbLanes32_append g _ hc, List.length_append, Nat.add_assoc]
  · rw [List.flatten_singleton, List.flatten_nil, absorbUnit32_nil]

/-- A unit that takes aligned chunks together takes them one after another, and ends as their concatenation leaves it (R108). -/
theorem execAll_absorb32_of_takes {cs : List (List Byte)} {s : State} (hs : Running s)
    (h : TakesAbsorb s.config s.u32 cs.flatten.length) (ha : alignedChunks cs) :
    execAll (cs.map .absorb32) s =
      .next { s with u32 := absorbUnit32 s.config cs.flatten s.u32, cmdIdx := s.cmdIdx + cs.length } := by
  induction cs generalizing s with
  | nil => simp [execAll]
  | cons c cs ih =>
    obtain ⟨hfirst, hrest⟩ := alignedChunks_cons ha
    obtain ⟨hlife, hcount⟩ := h
    rw [List.flatten_cons, List.length_append, ← Nat.add_assoc] at hcount
    have hexec := exec_absorb32_of_takes hs ⟨hlife, (Nat.le_add_right _ _).trans hcount⟩
    have hothers := ih (s := (s.setU32 (absorbUnit32 s.config c s.u32)).complete) hs ⟨hlife, hcount⟩ hrest
    rw [List.map_cons, execAll_cons_of_next hexec, hothers,
      absorbUnit32_flatten_cons _ hfirst, List.length_cons, Nat.add_comm cs.length, ← Nat.add_assoc]
    rfl

/-- Settles O37, by induction on the chunks. -/
theorem alignedChunking32 : Obligations.AlignedChunking32 :=
  fun _ _ hs h ha => ⟨_, exec_absorb32_of_takes hs h, hs, execAll_absorb32_of_takes hs h ha⟩

end Sys2Proof.Machine

/-! ### Unit U64: the mixing steps, NEW64 and ABSORB64 (42_mixer_2x64.md R131 to R135) -/

namespace Sys2Proof

theorem Lane2.before_after {b : Nat} (h : b < 2) : (Lane2.after b).before = b := by
  interval_cases b <;> rfl

end Sys2Proof

namespace Sys2Proof.Machine

open Sys2Proof.Safety

/-- Settles O30: `kmix64` takes the constants of a lane and of the other one, and the primary mix writes its own lane. -/
theorem primaryMix64 : Obligations.PrimaryMix64 :=
  fun g k h => ⟨rfl, rfl, fun i => ⟨primary64_get_same g i k h, fun _ hj => primary64_get_other g k h hj⟩⟩

/-- Settles O31: lane 1 is written first, so it finds lane 2 not yet written and lane 2 finds it new. -/
theorem fullBlock64 : Obligations.FullBlock64 := by
  intro g data h j n1 n2 h1 h2
  subst h2 h1
  rfl

/-- Byte p of the sixteen that two k words hold, at its little-endian position (R133). -/
def duoByte (k : Duo Word64) (p : Nat) : Byte := (k.get (Lane2.after (p / 8))).extractLsb' (8 * (p % 8)) 8

/-- One tail byte of U64 changes the byte at its own place and no other. -/
theorem duoByte_tailByte64 (data : List Byte) (base : Nat) (k : Duo Word64) {m p : Nat} (hm : m < 16) (hp : p < 16) :
    duoByte (tailByte64 data base k m) p =
      if p = m then duoByte k p ^^^ dataByte data (base + m) else duoByte k p := by
  unfold duoByte tailByte64
  by_cases hlane : p / 8 = m / 8
  · have hplace : p % 8 = m % 8 ↔ p = m := by omega
    simp only [hlane, Duo.get_set_same, ← hplace]
    exact extract_xor_shifted_byte 8 _ _ _ _ (Nat.mod_lt m (by decide)) (Nat.mod_lt p (by decide))
  · have hne : Lane2.after (p / 8) ≠ Lane2.after (m / 8) := by
      intro heq
      have hbefore := congrArg Lane2.before heq
      rw [Lane2.before_after (by omega), Lane2.before_after (by omega)] at hbefore
      exact hlane hbefore
    have hpm : p ≠ m := fun heq => hlane (heq ▸ rfl)
    rw [Duo.get_set_other _ _ _ _ hne, if_neg hpm]

/-- The k words of U64 hold the tail's bytes and zeros behind them (R133). -/
theorem duoByte_tailWords64 (data : List Byte) (base : Nat) {t p : Nat} (ht : t ≤ 16) (hp : p < 16) :
    duoByte (tailWords64 data base t) p = if p < t then dataByte data (base + p) else 0#8 := by
  induction t with
  | zero => simp [duoByte, tailWords64]
  | succ t ih =>
    rw [tailWords64_succ, duoByte_tailByte64 _ _ _ (by omega) hp, ih (by omega)]
    rcases lt_trichotomy p t with hlt | rfl | hgt
    · rw [if_neg hlt.ne, if_pos hlt, if_pos (by omega)]
    · rw [if_pos rfl, if_neg (lt_irrefl p), if_pos (by omega), BitVec.zero_xor]
    · rw [if_neg hgt.ne', if_neg (by omega), if_neg (by omega)]

/-- Settles O32: the bytes by induction on t, the lanes each on its own. -/
theorem tailStep64 : Obligations.TailStep64 :=
  fun g data base t h ht =>
    ⟨fun _ hp => duoByte_tailWords64 data base (Nat.le_succ_of_le ht) hp, tail64_get g data base t h⟩

/-- The fields of STATUS above LIFE64 mirror the fault record (R25). -/
theorem status_above_life64_congr {s t : State} (hfault : t.faultReg = s.faultReg) :
    t.status.extractLsb' 4 28 = s.status.extractLsb' 4 28 := by
  have hslice (s : State) : s.status.extractLsb' 4 28 =
      (0#19 ++ unitCode s.faultReg.funit ++ s.faultReg.cause.code ++ 0#3 ++
        BitVec.ofBool s.faultReg.halted).extractLsb' 0 28 := status_extractLsb'_above_lives s 0 28
  rw [hslice, hslice, hfault]

/-- LIFE32 mirrors U32's life (R25). -/
theorem status_life32_congr {s t : State} (h32 : t.u32.life = s.u32.life) :
    t.status.extractLsb' 0 2 = s.status.extractLsb' 0 2 := by
  rw [status_life32, status_life32, h32]

/-- Settles O33: NEW64 has no check, and what it completes to differs in U64 and CMDIDX alone. -/
theorem new64Effect : Obligations.New64Effect :=
  fun seed s hs =>
    ⟨completed (.new64 seed) s, exec_completes hs rfl, rfl, status_life64 _, status_life32_congr rfl,
      status_above_life64_congr rfl⟩

/-- Settles O34: each clause fixes the outcome of the admission check. -/
theorem absorb64Effect : Obligations.Absorb64Effect := by
  intro data s hs
  refine ⟨fun h => ?_, fun h => ?_, fun h ho => ?_, fun h => ?_⟩
  · exact exec_faults hs (absorbCheck_of_uninit s.config h)
  · exact exec_faults hs (absorbCheck_of_finalized s.config h)
  · exact exec_faults hs (absorbCheck_of_overflow s.config h ho)
  · rw [exec_absorb64_of_takes hs h, absorbUnit64, h.1]
    rfl

end Sys2Proof.Machine

/-! ### Aligned chunking of U64 (42_mixer_2x64.md R137) -/

namespace Sys2Proof.Machine

open Sys2Proof.Safety

section
variable (g : Config) {a : List Byte} (b : List Byte) {m : Nat} (ha : a.length = 16 * m)
include ha

theorem block64_append_left (h : Duo Word64) {j : Nat} (hj : j < m) : block64 g (a ++ b) h j = block64 g a h j := by
  have hread0 : dataRead 64 (a ++ b) (blockBytes * j) 8 = dataRead 64 a (blockBytes * j) 8 :=
    dataRead_block_append_left b ha 64 hj (o := 0) (by decide)
  have hread8 := dataRead_block_append_left b ha 64 hj (o := 8) (n := 8) (by decide)
  simp only [block64, blockWords64, hread0, hread8]

theorem block64_append_right (h : Duo Word64) (j : Nat) : block64 g (a ++ b) h (m + j) = block64 g b h j := by
  have hread0 : dataRead 64 (a ++ b) (blockBytes * (m + j)) 8 = dataRead 64 b (blockBytes * j) 8 :=
    dataRead_block_append_right b ha 64 j 0 8
  simp only [block64, blockWords64, hread0, dataRead_block_append_right b ha]

end

theorem tail64_append_right (g : Config) (a b : List Byte) (base t : Nat) (h : Duo Word64) :
    tail64 g (a ++ b) (a.length + base) t h = tail64 g b base t h := by
  have hstep : tailByte64 (a ++ b) (a.length + base) = tailByte64 b base := by
    funext k p
    rw [tailByte64, tailByte64, Nat.add_assoc, dataByte_append_right]
  rw [tail64, tail64, tailWords64, tailWords64, hstep]

/-- A chunk of m whole blocks has no tail. -/
theorem absorbLanes64_of_aligned (g : Config) {a : List Byte} {m : Nat} (ha : a.length = 16 * m) (h : Duo Word64) :
    absorbLanes64 g a h = (List.range m).foldl (block64 g a) h := by
  have hfull : a.length / blockBytes = m := by rw [blockBytes]; omega
  have htail : a.length % blockBytes = 0 := by rw [blockBytes]; omega
  simp only [absorbLanes64, hfull, htail, tail64_zero]

/-- Behind a chunk of whole blocks the rest of the data is absorbed as a chunk of its own. -/
theorem absorbLanes64_append (g : Config) {a : List Byte} (b : List Byte) (ha : a.length % 16 = 0) (h : Duo Word64) :
    absorbLanes64 g (a ++ b) h = absorbLanes64 g b (absorbLanes64 g a h) := by
  obtain ⟨m, hm⟩ : ∃ m, a.length = 16 * m := ⟨a.length / 16, by omega⟩
  have hfull : (a ++ b).length / blockBytes = m + b.length / blockBytes := by
    rw [List.length_append, blockBytes]; omega
  have htail : (a ++ b).length % blockBytes = b.length % blockBytes := by
    rw [List.length_append, blockBytes]; omega
  have hbase : blockBytes * (m + b.length / blockBytes) = a.length + blockBytes * (b.length / blockBytes) := by
    rw [Nat.mul_add, hm, blockBytes]
  rw [absorbLanes64_of_aligned g hm]
  simp only [absorbLanes64, hfull, htail, hbase, tail64_append_right]
  rw [foldl_blocks_append (fun x j hj => block64_append_left g b hm x hj) (block64_append_right g b hm)]

/-- U64 after aligned chunks, the first absorbed before the others. -/
theorem absorbUnit64_flatten_cons (g : Config) {c : List Byte} {cs : List (List Byte)} (h : c.length % 16 = 0 ∨ cs = [])
    (v : HashUnit (Duo Word64)) :
    absorbUnit64 g (c :: cs).flatten v = absorbUnit64 g cs.flatten (absorbUnit64 g c v) := by
  rcases h with hc | rfl
  · simp only [List.flatten_cons, absorbUnit64, absorbLanes64_append g _ hc, List.length_append, Nat.add_assoc]
  · rw [List.flatten_singleton, List.flatten_nil, absorbUnit64_nil]

/-- U64, if it takes aligned chunks together, takes them one after another and ends as their concatenation leaves it (R137). -/
theorem execAll_absorb64_of_takes {cs : List (List Byte)} {s : State} (hs : Running s)
    (h : TakesAbsorb s.config s.u64 cs.flatten.length) (ha : alignedChunks cs) :
    execAll (cs.map .absorb64) s =
      .next { s with u64 := absorbUnit64 s.config cs.flatten s.u64, cmdIdx := s.cmdIdx + cs.length } := by
  induction cs generalizing s with
  | nil => simp [execAll]
  | cons c cs ih =>
    obtain ⟨hfirst, hrest⟩ := alignedChunks_cons ha
    obtain ⟨hlife, hcount⟩ := h
    rw [List.flatten_cons, List.length_append, ← Nat.add_assoc] at hcount
    have hexec := exec_absorb64_of_takes hs ⟨hlife, (Nat.le_add_right _ _).trans hcount⟩
    have hothers := ih (s := (s.setU64 (absorbUnit64 s.config c s.u64)).complete) hs ⟨hlife, hcount⟩ hrest
    rw [List.map_cons, execAll_cons_of_next hexec, hothers,
      absorbUnit64_flatten_cons _ hfirst, List.length_cons, Nat.add_comm cs.length, ← Nat.add_assoc]
    rfl

/-- Settles O38, by induction on the chunks. -/
theorem alignedChunking64 : Obligations.AlignedChunking64 :=
  fun _ _ hs h ha => ⟨_, exec_absorb64_of_takes hs h, hs, execAll_absorb64_of_takes hs h ha⟩

end Sys2Proof.Machine

/-! ### The stages of the finalization (43_finalization.md R161 to R168, R172) -/

namespace Sys2Proof.Machine

/-- The word whose value is the count modulo the lane width is the count as the lanes take it (R161, R162). -/
theorem ofNat_eq_of_toNat_eq_mod {w count : Nat} {l : BitVec w} (h : l.toNat = count % 2 ^ w) :
    BitVec.ofNat w count = l := by
  apply BitVec.eq_of_toNat_eq
  rw [BitVec.toNat_ofNat, h]

/-- Settles O39: the low bits of the count are the count modulo the lane width. -/
theorem xorLenTakesTheCountModuloTheLane : Obligations.XorLenTakesTheCountModuloTheLane := by
  refine ⟨fun count h l hl => ?_, fun count h l hl => ?_⟩
  · rw [xorLen32, ofNat_eq_of_toNat_eq_mod hl]
  · rw [xorLen64, ofNat_eq_of_toNat_eq_mod hl]

/-- CROSSADD32 in the old lanes alone: each other lane counts itself twice, once through the new lane 1 (R163). -/
theorem crossAdd32_closed (a b c d : Word32) :
    crossAdd32 ⟨a, b, c, d⟩ = ⟨a + b + c + d, a + 2 * b + c + d, a + b + 2 * c + d, a + b + c + 2 * d⟩ := by
  have hb : b + (a + b + c + d) = a + 2 * b + c + d := by ring
  have hc : c + (a + b + c + d) = a + b + 2 * c + d := by ring
  have hd : d + (a + b + c + d) = a + b + c + 2 * d := by ring
  simp only [crossAdd32, hb, hc, hd]

/-- CROSSADD64 in the old lanes alone (R164). -/
theorem crossAdd64_closed (a b : Word64) : crossAdd64 ⟨a, b⟩ = ⟨a + b, a + 2 * b⟩ := by
  have hb : b + (a + b) = a + 2 * b := by ring
  simp only [crossAdd64, hb]

/-- Settles O40: the definitions add the new lane 1, and ring arithmetic gives the closed forms. -/
theorem crossAddOrder : Obligations.CrossAddOrder := by
  refine ⟨fun a b c d n1 hn => ?_, fun a b n1 hn => ?_, crossAdd32_closed, crossAdd64_closed⟩
  · rw [hn, crossAdd32]
  · rw [hn, crossAdd64]

theorem fmixLanes32_get (g : Config) (h : Quad Word32) (i : Lane4) : (fmixLanes32 g h).get i = fmix32 g (h.get i) := by
  cases i <;> rfl

theorem fmixLanes64_get (g : Config) (h : Duo Word64) (i : Lane2) : (fmixLanes64 g h).get i = fmix64 g (h.get i) := by
  cases i <;> rfl

/-- Settles O41: the reset block has the multipliers of R165 and R166. -/
theorem avalancheMixes : Obligations.AvalancheMixes := by
  refine ⟨?_, ?_, fmixLanes32_get, fmixLanes64_get⟩
  · rintro x _ _ _ _ rfl rfl rfl rfl
    rfl
  · rintro x _ _ _ _ rfl rfl rfl rfl
    rfl

/-- The XOR-shift an avalanche mix is made of (R165, R166). -/
def xorShift {w : Nat} (a : Nat) (x : BitVec w) : BitVec w := x ^^^ (x >>> a)

/-- An avalanche mix is three XOR-shifts with a multiplication between each two. -/
theorem fmix_eq_xorShift {w : Nat} (a b c : Nat) (m : FmixConsts w) (x : BitVec w) :
    fmix a b c m x = xorShift c (xorShift b (xorShift a x * m.m1) * m.m2) := rfl

/-- Two words with one XOR-shift differ by a word that is its own shift, and only 0 is. -/
theorem xorShift_injective {w a : Nat} (ha : 0 < a) : Function.Injective (xorShift (w := w) a) := by
  intro x y hxy
  have hshift : x ^^^ y = (x ^^^ y) >>> a := by
    have hzero : xorShift a x ^^^ xorShift a y = 0#w := by rw [hxy, BitVec.xor_self]
    rw [BitVec.ushiftRight_xor_distrib, ← BitVec.xor_eq_zero_iff, ← hzero, xorShift, xorShift]
    ac_rfl
  have hnat : (x ^^^ y).toNat = (x ^^^ y).toNat / 2 ^ a := by
    rw [← Nat.shiftRight_eq_div_pow, ← BitVec.toNat_ushiftRight, ← hshift]
  have hdiff : (x ^^^ y).toNat = 0 :=
    (Nat.div_eq_self.mp hnat.symm).resolve_right (Nat.one_lt_two_pow ha.ne').ne'
  exact BitVec.xor_eq_zero_iff.mp (BitVec.eq_of_toNat_eq hdiff)

/-- An odd multiplier can be cancelled modulo 2^w (R172). -/
theorem mul_odd_injective {w : Nat} {m : BitVec w} (hm : m.toNat % 2 = 1) : Function.Injective fun x : BitVec w => x * m := by
  intro x y hxy
  have hcoprime : Nat.gcd (2 ^ w) m.toNat = 1 := Nat.Coprime.pow_left w (Nat.coprime_two_left.mpr (Nat.odd_iff.mpr hm))
  have hmod : x.toNat * m.toNat ≡ y.toNat * m.toNat [MOD 2 ^ w] := by
    rw [Nat.ModEq, ← BitVec.toNat_mul, ← BitVec.toNat_mul]
    exact congrArg BitVec.toNat hxy
  apply BitVec.eq_of_toNat_eq
  exact (hmod.cancel_right_of_coprime hcoprime).eq_of_lt_of_lt x.isLt y.isLt

/-- An avalanche mix with odd multipliers loses nothing in any of its five steps (R172). -/
theorem fmix_bijective {w a b c : Nat} {m : FmixConsts w} (hm : m.ok = true) (ha : 0 < a) (hb : 0 < b) (hc : 0 < c) :
    Function.Bijective (fmix a b c m) := by
  simp only [FmixConsts.ok, Bool.and_eq_true, decide_eq_true_eq] at hm
  obtain ⟨hm1, hm2⟩ := hm
  have hfinite : Finite (BitVec w) := Finite.of_injective _ BitVec.toFin_injective
  rw [← Finite.injective_iff_bijective]
  intro x y hxy
  rw [fmix_eq_xorShift, fmix_eq_xorShift] at hxy
  exact xorShift_injective ha (mul_odd_injective hm1 (xorShift_injective hb (mul_odd_injective hm2 (xorShift_injective hc hxy))))

@[simp] theorem fmix_zero {w : Nat} (a b c : Nat) (m : FmixConsts w) : fmix a b c m 0#w = 0#w := by simp [fmix]

@[simp] theorem fmix32_zero (g : Config) : fmix32 g 0#32 = 0#32 := fmix_zero _ _ _ _

@[simp] theorem fmix64_zero (g : Config) : fmix64 g 0#64 = 0#64 := fmix_zero _ _ _ _

/-- The multipliers of an allowed configuration are odd (R165, R166). -/
theorem fmix_ok_of_ok {g : Config} (h : g.ok = true) : g.fmix32.ok = true ∧ g.fmix64.ok = true := by
  simp only [Config.ok, Bool.and_eq_true] at h
  obtain ⟨⟨-, h32⟩, h64⟩ := h
  exact ⟨h32, h64⟩

/-- Settles O42: an XOR-shift and an odd multiplication are injective, and a word has finitely many values. -/
theorem avalancheMixesAreBijections : Obligations.AvalancheMixesAreBijections := by
  intro g hg
  obtain ⟨h32, h64⟩ := fmix_ok_of_ok hg
  exact ⟨fmix_bijective h32 (by decide) (by decide) (by decide), fmix_bijective h64 (by decide) (by decide) (by decide),
    fmix32_zero g, fmix64_zero g⟩

/-- Lane i's four bytes of a digest (R167). -/
theorem digest32_lane (h : Quad Word32) (i : Lane4) :
    ((digest32 h).drop (4 * i.before)).take 4 = encLe32 (h.get i) := by
  cases i <;> simp [digest32, Lane4.before, Quad.get, List.drop_append, List.drop_eq_nil_of_le]

/-- Lane i's eight bytes of a digest of U64 (R168). -/
theorem digest64_lane (h : Duo Word64) (i : Lane2) :
    ((digest64 h).drop (8 * i.before)).take 8 = encLe64 (h.get i) := by
  cases i <;> simp [digest64, Lane2.before, Duo.get, List.drop_append]

/-- Settles O43: byte b of lane i's part of the digest is byte b of the written lane. -/
theorem digestBytes : Obligations.DigestBytes := by
  refine ⟨fun h => ⟨digest32_length h, fun i b hb => ?_⟩, fun h => ⟨digest64_length h, fun i b hb => ?_⟩⟩
  · rw [← getElem?_take_drop hb, digest32_lane]
    exact encLe_toNat_getElem? _ hb
  · rw [← getElem?_take_drop hb, digest64_lane]
    exact encLe_toNat_getElem? _ hb

end Sys2Proof.Machine

/-! ### FINAL32 and FINAL64, and the empty input (43_finalization.md R169, R170, R172) -/

namespace Sys2Proof.Machine

open Sys2Proof.Safety

section
variable {L : Type} {v : HashUnit L}

theorem finalCheck_of_uninit (h : v.life = .uninit) : finalCheck v = some .notInitialised := by
  rw [finalCheck, h]

theorem finalCheck_of_finalized (h : v.life = .finalized) : finalCheck v = some .doubleFinal := by
  rw [finalCheck, h]

theorem finalCheck_of_active (h : v.life = .active) : finalCheck v = none := by
  rw [finalCheck, h]

end

/-- Settles O44: each clause fixes the outcome of the check, and the completed FINAL32 runs the stages of R160. -/
theorem final32Effect : Obligations.Final32Effect := by
  intro s hs
  refine ⟨fun h => exec_faults hs (finalCheck_of_uninit h), fun h => exec_faults hs (finalCheck_of_finalized h), ?_⟩
  rintro h lanes rfl
  exact ⟨completed .final32 s, exec_completes hs (finalCheck_of_active h), rfl, status_life32 _,
    status_above_life32_congr rfl rfl⟩

/-- Settles O45: each clause fixes the outcome of the check, and the completed FINAL64 runs the stages of R160. -/
theorem final64Effect : Obligations.Final64Effect := by
  intro s hs
  refine ⟨fun h => exec_faults hs (finalCheck_of_uninit h), fun h => exec_faults hs (finalCheck_of_finalized h), ?_⟩
  rintro h lanes rfl
  exact ⟨completed .final64 s, exec_completes hs (finalCheck_of_active h), rfl, status_life64 _,
    status_life32_congr rfl, status_above_life64_congr rfl⟩

/-- Every stage keeps zero lanes at 0 when the count is 0 (R172). -/
theorem finalLanes32_zero (g : Config) : finalLanes32 g 0 (Quad.fill 0#32) = Quad.fill 0#32 := by
  have hxor : xorLen32 0 (Quad.fill 0#32) = Quad.fill 0#32 := rfl
  have hcross : crossAdd32 (Quad.fill 0#32) = Quad.fill 0#32 := rfl
  have hfmix : fmixLanes32 g (Quad.fill 0#32) = Quad.fill 0#32 :=
    Quad.ext_get fun i => by rw [fmixLanes32_get, Quad.get_fill, fmix32_zero]
  rw [finalLanes32, hxor, hcross, hfmix, hcross]

/-- Every stage of U64 keeps zero lanes at 0 when the count is 0 (R172). -/
theorem finalLanes64_zero (g : Config) : finalLanes64 g 0 (Duo.fill 0#64) = Duo.fill 0#64 := by
  have hxor : xorLen64 0 (Duo.fill 0#64) = Duo.fill 0#64 := rfl
  have hcross : crossAdd64 (Duo.fill 0#64) = Duo.fill 0#64 := rfl
  have hfmix : fmixLanes64 g (Duo.fill 0#64) = Duo.fill 0#64 :=
    Duo.ext_get fun i => by rw [fmixLanes64_get, Duo.get_fill, fmix64_zero]
  rw [finalLanes64, hxor, hcross, hfmix, hcross]

/-- Hashing no bytes on U32 completes, and emits the digest of the finalized new unit. -/
theorem execAll_hash_nil32 {s : State} (hs : Running s) (seed : Word32) :
    ∃ t, execAll [.new32 seed, .absorb32 [], .final32] s = .next t ∧
      t.response = s.response ++ digest32 (finalLanes32 s.config 0 (Quad.fill seed)) := by
  have hnew : exec (.new32 seed) s = .next (completed (.new32 seed) s) := exec_completes hs rfl
  have habsorb : exec (.absorb32 []) (completed (.new32 seed) s) = .next (completed (.new32 seed) s).complete :=
    zeroLengthAbsorbOnlyCounts.1 _ hs ⟨rfl, Nat.zero_le _⟩
  have hfinal := exec_completes (i := .final32) (s := (completed (.new32 seed) s).complete) hs rfl
  exact ⟨_, by rw [execAll_cons_of_next hnew, execAll_cons_of_next habsorb, execAll_cons_of_next hfinal, execAll], rfl⟩

/-- Hashing no bytes on U64 completes, and emits the digest of the finalized new unit. -/
theorem execAll_hash_nil64 {s : State} (hs : Running s) (seed : Word32) :
    ∃ t, execAll [.new64 seed, .absorb64 [], .final64] s = .next t ∧
      t.response = s.response ++ digest64 (finalLanes64 s.config 0 (Duo.fill (seed64 seed))) := by
  have hnew : exec (.new64 seed) s = .next (completed (.new64 seed) s) := exec_completes hs rfl
  have habsorb : exec (.absorb64 []) (completed (.new64 seed) s) = .next (completed (.new64 seed) s).complete :=
    zeroLengthAbsorbOnlyCounts.2 _ hs ⟨rfl, Nat.zero_le _⟩
  have hfinal := exec_completes (i := .final64) (s := (completed (.new64 seed) s).complete) hs rfl
  exact ⟨_, by rw [execAll_cons_of_next hnew, execAll_cons_of_next habsorb, execAll_cons_of_next hfinal, execAll], rfl⟩

/-- Settles O46: seed 0 and count 0 give zero lanes, which every stage keeps, whatever the constants. -/
theorem emptyInputWithSeedZero : Obligations.EmptyInputWithSeedZero := by
  intro s hs
  obtain ⟨t, ht, hresponse32⟩ := execAll_hash_nil32 hs 0#32
  obtain ⟨v, hv, hresponse64⟩ := execAll_hash_nil64 hs 0#32
  have hdigest32 : digest32 (Quad.fill 0#32) = List.replicate 16 0#8 := by decide
  have hdigest64 : digest64 (Duo.fill 0#64) = List.replicate 16 0#8 := by decide
  have hseed : seed64 0#32 = 0#64 := rfl
  rw [finalLanes32_zero, hdigest32] at hresponse32
  rw [hseed, finalLanes64_zero, hdigest64] at hresponse64
  exact ⟨⟨t, ht, hresponse32⟩, ⟨v, hv, hresponse64⟩⟩

end Sys2Proof.Machine

/-! ### A finalized unit (43_finalization.md R171) -/

namespace Sys2Proof.Machine

open Sys2Proof.Safety

/-- A command that leaves the block running has completed. -/
theorem eq_completed_of_exec {i : Instr} {s t : State} (h : exec i s = .next t) (ht : Running t) : t = completed i s := by
  obtain ⟨-, ⟨c, -, rfl⟩ | ⟨-, rfl⟩⟩ := exec_next_cases h
  · exact absurd ht (not_running_raiseFault s c i.unit)
  · rfl

/-- A command of U64 leaves U32 as it was, whether it completes or faults (R2). -/
theorem exec_keeps_u32 {i : Instr} (hi : i.unit = .u64) {s t : State} (h : exec i s = .next t) : t.u32 = s.u32 := by
  obtain ⟨-, ⟨c, -, rfl⟩ | ⟨-, rfl⟩⟩ := exec_next_cases h
  · rfl
  · exact completed_u32_of_u64 hi s

/-- A command of U32 leaves U64 as it was, whether it completes or faults (R2). -/
theorem exec_keeps_u64 {i : Instr} (hi : i.unit = .u32) {s t : State} (h : exec i s = .next t) : t.u64 = s.u64 := by
  obtain ⟨-, ⟨c, -, rfl⟩ | ⟨-, rfl⟩⟩ := exec_next_cases h
  · rfl
  · exact completed_u64_of_u32 hi s

/-- What each of some commands leaves as it was, all of them together leave as it was. -/
theorem execAll_keeps {β : Type} {f : State → β} {is : List Instr} {s t : State}
    (hkeeps : ∀ i ∈ is, ∀ {s u : State}, exec i s = .next u → f u = f s) (h : execAll is s = .next t) : f t = f s := by
  induction is generalizing s with
  | nil =>
    cases h
    rfl
  | cons i is ih =>
    obtain ⟨hi, hrest⟩ := List.forall_mem_cons.mp hkeeps
    obtain ⟨u, hu, hall⟩ := execAll_cons_next h
    exact (ih hrest hall).trans (hi hu)

/-- Settles O47: the other unit's commands leave the finalized unit as its FINAL left it, and its life decides every check. -/
theorem finalizedUnitAwaitsNew : Obligations.FinalizedUnitAwaitsNew := by
  refine ⟨fun s t v is hfinal ht his hall hv => ?_, fun s t v is hfinal ht his hall hv => ?_⟩
  · have hunit : v.u32 = finalUnit32 s.config s.u32 := by
      rw [execAll_keeps (f := State.u32) (fun i hi => exec_keeps_u32 (his i hi)) hall, eq_completed_of_exec hfinal ht]
      rfl
    have hlife : v.u32.life = .finalized := congrArg HashUnit.life hunit
    exact ⟨congrArg HashUnit.lanes hunit, exec_faults hv (finalCheck_of_finalized hlife),
      fun _ => exec_faults hv (absorbCheck_of_finalized v.config hlife), fun _ => ⟨_, exec_completes hv rfl, rfl⟩⟩
  · have hunit : v.u64 = finalUnit64 s.config s.u64 := by
      rw [execAll_keeps (f := State.u64) (fun i hi => exec_keeps_u64 (his i hi)) hall, eq_completed_of_exec hfinal ht]
      rfl
    have hlife : v.u64.life = .finalized := congrArg HashUnit.life hunit
    exact ⟨congrArg HashUnit.lanes hunit, exec_faults hv (finalCheck_of_finalized hlife),
      fun _ => exec_faults hv (absorbCheck_of_finalized v.config hlife), fun _ => ⟨_, exec_completes hv rfl, rfl⟩⟩

end Sys2Proof.Machine

/-! ### Frames that end early (60_exceptions.md R206) -/

namespace Sys2Proof

/-- Format N with its four seed bytes and nothing behind them (R72). -/
theorem decodeNew_of_length (u : UnitSel) {bs : List Byte} (h : bs.length = 4) :
    decodeNew u bs = .frame (newOf u (leWord 32 bs)) [] := by
  simp [decodeNew, h, List.take_of_length_le h.le, List.drop_of_length_le h.le]

/-- A data field with nothing behind it (R73). -/
theorem decodeData_of_length (u : UnitSel) {n : Nat} {bs : List Byte} (h : bs.length = n) :
    decodeData u n bs = .frame (absorbOf u bs) [] := by
  have := decodeData_append u bs []
  rwa [List.append_nil, h] at this

/-- Format A with its length field present goes on to the data field (R73). -/
theorem decodeAbsorb_append {g : Config} (u : UnitSel) {field : List Byte} (h : field.length = g.lenBytes) (bs : List Byte) :
    decodeAbsorb g u (field ++ bs) = decodeData u (le field) bs := by
  have hlen : ¬ (field ++ bs).length < g.lenBytes := by simp [h]
  rw [decodeAbsorb, if_neg hlen, List.take_left' h, List.drop_left' h]

/-- A list that is too short becomes n long with bytes behind it. -/
theorem exists_append_length_eq {bs : List Byte} {n : Nat} (h : bs.length < n) :
    ∃ bytes, bytes ≠ [] ∧ (bs ++ bytes).length = n :=
  ⟨List.replicate (n - bs.length) 0#8, by simpa using (by omega : n - bs.length ≠ 0), by simp; omega⟩

theorem decodeNew_incomplete {u : UnitSel} {bs : List Byte} (h : decodeNew u bs = .incomplete) :
    ∃ i bytes, bytes ≠ [] ∧ decodeNew u (bs ++ bytes) = .frame i [] := by
  rw [decodeNew] at h
  split at h
  · next hshort =>
    obtain ⟨bytes, hne, hlen⟩ := exists_append_length_eq hshort
    exact ⟨_, bytes, hne, decodeNew_of_length u hlen⟩
  · cases h

theorem decodeData_incomplete {u : UnitSel} {n : Nat} {bs : List Byte} (h : decodeData u n bs = .incomplete) :
    ∃ i bytes, bytes ≠ [] ∧ decodeData u n (bs ++ bytes) = .frame i [] := by
  rw [decodeData] at h
  split at h
  · next hshort =>
    obtain ⟨bytes, hne, hlen⟩ := exists_append_length_eq hshort
    exact ⟨_, bytes, hne, decodeData_of_length u hlen⟩
  · cases h

/-- An ABSORB frame that ends early ends in its length field, or in its data field. -/
theorem decodeAbsorb_incomplete {g : Config} {u : UnitSel} {bs : List Byte} (h : decodeAbsorb g u bs = .incomplete) :
    ∃ i bytes, bytes ≠ [] ∧ decodeAbsorb g u (bs ++ bytes) = .frame i [] := by
  by_cases hshort : bs.length < g.lenBytes
  · obtain ⟨bytes, hne, hlen⟩ := exists_append_length_eq hshort
    have hdata := decodeData_of_length u (List.length_replicate (n := le (bs ++ bytes)) (a := 0#8))
    refine ⟨absorbOf u (List.replicate (le (bs ++ bytes)) 0#8), bytes ++ List.replicate (le (bs ++ bytes)) 0#8,
      List.append_ne_nil_of_left_ne_nil hne _, ?_⟩
    rw [← List.append_assoc, decodeAbsorb_append u hlen, hdata]
  · have hfield : (bs.take g.lenBytes).length = g.lenBytes := List.length_take_of_le (Nat.le_of_not_lt hshort)
    rw [decodeAbsorb, if_neg hshort] at h
    obtain ⟨i, bytes, hne, hdata⟩ := decodeData_incomplete h
    refine ⟨i, bytes, hne, ?_⟩
    rw [← List.take_append_drop g.lenBytes bs, List.append_assoc, decodeAbsorb_append u hfield, hdata]

/-- A byte sequence that ends inside a frame becomes a frame with more bytes behind it. -/
theorem decode_incomplete {g : Config} {bs : List Byte} (h : decode g bs = .incomplete) :
    bs ≠ [] ∧ ∃ i bytes, bytes ≠ [] ∧ decode g (bs ++ bytes) = .frame i [] := by
  cases bs with
  | nil => cases h
  | cons o tl =>
    refine ⟨List.cons_ne_nil o tl, ?_⟩
    cases hop : decodeOpcode o with
    | none =>
      rw [decode_cons_of_illegal g hop] at h
      cases h
    | some r =>
      obtain ⟨u, op⟩ := r
      obtain rfl := eq_opcodeByte_of_decodeOpcode hop
      cases op with
      | new =>
        rw [decode_new] at h
        simpa only [List.cons_append, decode_new] using decodeNew_incomplete h
      | absorb =>
        rw [decode_absorb] at h
        simpa only [List.cons_append, decode_absorb] using decodeAbsorb_incomplete h
      | final =>
        rw [decode_final] at h
        cases h

/-- Only the byte sequence without a byte decodes to nothing: every opcode byte is read or rejected. -/
theorem eq_nil_of_decode_empty {g : Config} {bs : List Byte} (h : decode g bs = .empty) : bs = [] := by
  cases bs with
  | nil => rfl
  | cons o tl =>
    rw [decode] at h
    split at h
    · cases h
    · rw [decodeNew] at h
      split at h <;> cases h
    · rw [decodeAbsorb, decodeData] at h
      split at h
      · cases h
      · split at h <;> cases h
    · cases h

/-- Cut short, a frame is neither a frame nor rejected: either would stand with the missing bytes behind it. -/
theorem decode_incomplete_of_append {g : Config} {bs bytes : List Byte} {i : Instr} (hbs : bs ≠ []) (hbytes : bytes ≠ [])
    (h : decode g (bs ++ bytes) = .frame i []) : decode g bs = .incomplete := by
  cases hd : decode g bs with
  | empty => exact absurd (eq_nil_of_decode_empty hd) hbs
  | incomplete => rfl
  | illegal o =>
    obtain ⟨hop, tl, rfl⟩ := decode_illegal hd
    rw [List.cons_append, decode_cons_of_illegal g hop] at h
    cases h
  | frame j rest =>
    rw [decode_append_of_frame hd, Decoded.frame.injEq] at h
    exact absurd (List.append_eq_nil_iff.mp h.2).2 hbytes

/-- The front of a frame, short of the whole, ends inside the frame (R206). -/
theorem decode_take_encode {g : Config} {i : Instr} {m : Nat} (hwf : i.wellFormed g = true) (hpos : 0 < m)
    (hm : m < frameLength g i) : decode g ((encode g i).take m) = .incomplete := by
  have hlen := encode_length g i
  refine decode_incomplete_of_append (bytes := (encode g i).drop m) (i := i) ?_ ?_ ?_
  · rw [← List.length_pos_iff, List.length_take]
    omega
  · rw [← List.length_pos_iff, List.length_drop]
    omega
  · have := decodeOfEncode g i [] hwf
    rwa [List.append_nil, ← List.take_append_drop m (encode g i)] at this

/-- The bytes that end inside a frame are the front of some well-formed command's frame (R206). -/
theorem eq_take_encode_of_decode_incomplete {g : Config} {bs : List Byte} (h : decode g bs = .incomplete) :
    ∃ (i : Instr) (m : Nat), i.wellFormed g = true ∧ 0 < m ∧ m < frameLength g i ∧ bs = (encode g i).take m := by
  obtain ⟨hbs, i, bytes, hbytes, hframe⟩ := decode_incomplete h
  obtain ⟨hwf, hencode⟩ := encode_of_decode hframe
  rw [List.append_nil] at hencode
  refine ⟨i, bs.length, hwf, List.length_pos_iff.mpr hbs, ?_, ?_⟩
  · rw [← encode_length, ← hencode, List.length_append]
    exact Nat.lt_add_of_pos_right (List.length_pos_iff.mpr hbytes)
  · rw [← hencode, List.take_left]

end Sys2Proof

namespace Sys2Proof.Machine

open Sys2Proof.Safety

/-- A running block waits exactly for the rest of a frame it has begun to read: an illegal opcode byte and a whole frame give it a step. -/
theorem step_incompleteFrame_iff {s : State} (hs : Running s) :
    step s = .fault .incompleteFrame ↔ s.fetch = .incomplete := by
  rw [step, if_neg (ne_true_of_eq_false hs)]
  cases s.fetch with
  | empty => simp
  | incomplete => simp
  | illegal o => simp [retire]
  | frame i rest => simp [exec_running hs, retire]

/-- Settles O10: what is decoded as incomplete is a frame without its last bytes. -/
theorem incompleteFrameWaits : Obligations.IncompleteFrameWaits := by
  refine ⟨fun s hs => ?_, fun s i m hwf hpos hm hstream => ⟨fun hs => ?_, ?_⟩⟩
  · rw [step_incompleteFrame_iff hs]
    constructor
    · exact eq_take_encode_of_decode_incomplete
    · rintro ⟨i, m, hwf, hpos, hm, hstream⟩
      rw [State.fetch, hstream, decode_take_encode hwf hpos hm]
  · rw [State.runEnd, if_neg (ne_true_of_eq_false hs), State.fetch, hstream, decode_take_encode hwf hpos hm]
  · rw [State.fetch, State.send_stream, State.send_config, hstream, List.take_append_drop, ← decodeOfEncode _ i [] hwf,
      List.append_nil]

end Sys2Proof.Machine

/-! ### Fault entry, HALTED and the admission table (60_exceptions.md R202 to R204) -/

namespace Sys2Proof.Machine

open Sys2Proof.Safety

/-- A halted block takes no step (R204). -/
theorem step_of_halted {s : State} (h : s.faultReg.halted = true) : step s = .fault .halted := if_pos h

/-- A halted block executes no command (R29, R204). -/
theorem exec_of_halted {s : State} (h : s.faultReg.halted = true) (i : Instr) : exec i s = .fault .halted := by
  rw [exec_eq_guarded, accept_halted h]

/-- The block's own move leaves a halted block as it is (R204). -/
theorem move_blockStep_of_halted {s : State} (h : s.faultReg.halted = true) : s.move .blockStep = s := by
  rw [State.move, step_of_halted h]

/-- Settles O11: no command is accepted, so that only the host still moves the block, and only its reset writes what it can observe of
the fault. -/
theorem haltIsStickyUntilReset : Obligations.HaltIsStickyUntilReset := by
  refine ⟨fun s hs => ?_, fun s t h ht => ?_, fun s m hs hm => ?_, fun s => rfl⟩
  · have hhalted := eq_true_of_ne_false hs
    exact ⟨step_of_halted hhalted, exec_of_halted hhalted⟩
  · obtain ⟨c, u, -, -, rfl⟩ := step_faults h ht
    exact ⟨rfl, rfl⟩
  · cases m with
    | blockStep =>
      rw [move_blockStep_of_halted (eq_true_of_ne_false hs)]
      exact ⟨rfl, rfl⟩
    | hostSend bytes => exact ⟨rfl, rfl⟩
    | hostReset => exact absurd rfl hm

/-- A command that leaves the block halted has faulted with the cause of its check. -/
theorem eq_raiseFault_of_exec {i : Instr} {s t : State} (h : exec i s = .next t) (ht : ¬ Running t) :
    ∃ c, checkOf i s = some c ∧ t = s.raiseFault c i.unit := by
  obtain ⟨hs, hfault | ⟨-, rfl⟩⟩ := exec_next_cases h
  · exact hfault
  · exact absurd (running_completed hs) ht

/-- Settles O12: a halting step has raised the fault of an illegal opcode byte, or of the command it fetched. -/
theorem faultEntryChangesNothingElse : Obligations.FaultEntryChangesNothingElse := by
  refine ⟨fun i s t h ht => ?_, fun s t h ht => ?_⟩
  · obtain ⟨c, hc, rfl⟩ := eq_raiseFault_of_exec h ht
    obtain ⟨hnone, hillegal⟩ := checkOf_cause hc
    exact ⟨c, hnone, hillegal, rfl⟩
  · obtain ⟨-, ⟨o, hf, rfl⟩ | ⟨i, rest, v, hf, hexec, rfl⟩⟩ := step_next_cases h
    · rw [State.fetch] at hf
      exact ⟨.illegalCommand, .u32, by decide, by simp [hf], fun _ _ => ⟨rfl, rfl⟩, .inr ⟨o, hf⟩, rfl⟩
    · rw [State.fetch] at hf
      obtain ⟨c, hc, rfl⟩ := eq_raiseFault_of_exec hexec ht
      obtain ⟨hnone, hillegal⟩ := checkOf_cause hc
      exact ⟨c, i.unit, hnone, by simp [hf, hillegal], by simp [hf], .inl ⟨i, rest, hf⟩, rfl⟩

/-- The checks of ABSORB are the ABSORB row of the admission table (R202). -/
theorem absorbCheck_eq_admission {L : Type} (g : Config) (v : HashUnit L) (n : Nat) :
    absorbCheck g v n = admission .absorb v.life (decide (v.count + n > 2 ^ g.countWidth - 1)) := by
  rcases absorbCheck_cases g v n with ⟨hl, e⟩ | ⟨hl, e⟩ | ⟨hl, ho, e⟩ | ⟨hl, ho, e⟩
  · rw [e, hl, admission]
  · rw [e, hl, admission]
  · rw [e, hl, decide_eq_true ho, admission]
  · rw [e, hl, decide_eq_false (Nat.not_lt.mpr ho), admission]

/-- The checks of FINAL are the FINAL row of the admission table, which does not ask for the count (R202). -/
theorem finalCheck_eq_admission {L : Type} (v : HashUnit L) (exceeds : Bool) :
    finalCheck v = admission .final v.life exceeds := by
  rcases finalCheck_cases v with ⟨hl, e⟩ | ⟨hl, e⟩ | ⟨hl, e⟩ <;> rw [e, hl, admission]

/-- Every command's check is the cell of the admission table for its operation and its unit (R202). -/
theorem checkOf_eq_admission (i : Instr) (s : State) :
    checkOf i s = admission i.operation (lifeOf s i.unit) (exceedsCount s i) := by
  cases i with
  | new32 seed => rfl
  | absorb32 data => exact absorbCheck_eq_admission s.config s.u32 data.length
  | final32 => exact finalCheck_eq_admission s.u32 _
  | new64 seed => rfl
  | absorb64 data => exact absorbCheck_eq_admission s.config s.u64 data.length
  | final64 => exact finalCheck_eq_admission s.u64 _

/-- Settles O13: a command answers what its check decides, and its check is the table's cell. -/
theorem admissionFollowsTheTable : Obligations.AdmissionFollowsTheTable := by
  refine ⟨fun i s hs => ?_, fun s o rest hs hstream hop => ?_⟩
  · rw [← checkOf_eq_admission]
    cases hc : checkOf i s with
    | none => exact ⟨_, exec_completes hs hc, by simp, fun _ => ⟨running_completed hs, completed_cmdIdx i s⟩⟩
    | some c => exact ⟨_, exec_faults hs hc, by rintro _ ⟨⟩; rfl, by simp⟩
  · have hfetch : s.fetch = .illegal o := by rw [State.fetch, hstream, decode_cons_of_illegal _ hop]
    exact ⟨_, step_of_illegal hs hfetch, rfl⟩

end Sys2Proof.Machine

/-! ### Several blocks (60_exceptions.md R211) -/

namespace Sys2Proof.Machine

/-- A move changes the block at its place by that move, and nothing where there is no block. -/
theorem System.move_eq_modify (sys : System) (k : Nat) (m : Move) : sys.move k m = sys.modify k (State.move · m) := by
  rw [System.move, List.modify_eq_set_getElem?]
  cases sys[k]? <;> rfl

theorem System.move_getElem? (sys : System) (k : Nat) (m : Move) (l : Nat) :
    (sys.move k m)[l]? = if k = l then sys[l]?.map (State.move · m) else sys[l]? := by
  rw [System.move_eq_modify, List.getElem?_modify]
  split <;> simp

theorem System.move_getElem?_of_ne (sys : System) {k l : Nat} (h : k ≠ l) (m : Move) : (sys.move k m)[l]? = sys[l]? := by
  rw [System.move_getElem?, if_neg h]

/-- Settles O54: the moves write different places of the list. -/
theorem blocksAreIndependent : Obligations.BlocksAreIndependent := by
  intro sys j k m n hjk
  refine ⟨sys.move_getElem?_of_ne hjk m, List.ext_getElem? fun l => ?_⟩
  simp only [System.move_getElem?]
  by_cases hj : j = l
  · have hk : k ≠ l := fun hk => hjk (hj.trans hk.symm)
    simp [hk]
  · simp [hj]

end Sys2Proof.Machine

/-! ### How a run ends (70_reset_and_hazards.md R233) -/

namespace Sys2Proof.Machine

open Sys2Proof.Safety

theorem runEnd_of_halted {s : State} (h : s.faultReg.halted = true) : s.runEnd = .faulted := if_pos h

/-- A running block steps from what it fetches: a whole frame or an illegal opcode byte gives it a step, and nothing else does. -/
theorem runEnd_cases_of_running {s : State} (hs : Running s) :
    (s.runEnd = .running ∧ ∃ t, step s = .next t) ∨
    (s.runEnd = .stuck ∧ step s = .fault .incompleteFrame) ∨
    (s.runEnd = .endedNormally ∧ step s = .fault .endOfStream) := by
  cases hf : s.fetch with
  | empty => exact .inr (.inr (by simp [State.runEnd, step, hs, hf]))
  | incomplete => exact .inr (.inl (by simp [State.runEnd, step, hs, hf]))
  | illegal o => exact .inl ⟨by simp [State.runEnd, hs, hf], _, step_of_illegal hs hf⟩
  | frame i rest => exact .inl ⟨by simp [State.runEnd, hs, hf], _, step_of_exec hf (exec_running hs)⟩

/-- A run has ended normally exactly when every byte is consumed and no fault was raised (R233). -/
theorem runEnd_eq_endedNormally_iff {s : State} : s.runEnd = .endedNormally ↔ s.stream = [] ∧ Running s := by
  by_cases hs : Running s
  · have hfetch : s.runEnd = .endedNormally ↔ s.fetch = .empty := by
      rw [State.runEnd, if_neg (ne_true_of_eq_false hs)]
      cases s.fetch <;> simp
    rw [hfetch, and_iff_left hs]
    refine ⟨eq_nil_of_decode_empty, fun hstream => ?_⟩
    rw [State.fetch, hstream, decode]
  · simp [runEnd_of_halted (eq_true_of_ne_false hs), hs]

/-- Settles O16: each of the four ways a run stands fixes the step's answer, and the answers differ. -/
theorem runEndDecidesTheStep : Obligations.RunEndDecidesTheStep := by
  intro s
  rw [← runEnd_eq_endedNormally_iff]
  by_cases hs : Running s
  · obtain ⟨hend, t, hstep⟩ | ⟨hend, hstep⟩ | ⟨hend, hstep⟩ := runEnd_cases_of_running hs <;> simp [hend, hstep]
  · have hhalted := eq_true_of_ne_false hs
    simp [runEnd_of_halted hhalted, step_of_halted hhalted]

end Sys2Proof.Machine

/-! ### The grammar of one unit's operations (70_reset_and_hazards.md R232) -/

namespace Sys2Proof.Safety

open Sys2Proof.Machine

/-- A unit in this life admits the operation as long as its count does not overflow: NEW always, ABSORB and FINAL while it is ACTIVE
(60_exceptions.md R202). -/
abbrev Admits (life : Life) (op : Operation) : Prop := op = .new ∨ life = .active

/-- A check gives no cause exactly when the life admits the operation and an ABSORB does not overflow the count. -/
theorem admission_eq_none_iff {op : Operation} {life : Life} {exceeds : Bool} :
    admission op life exceeds = none ↔ Admits life op ∧ (op = .absorb → exceeds = false) := by
  cases op with
  | new => simp [admission, Admits]
  | absorb => cases life <;> cases exceeds <;> simp [admission, Admits]
  | final => cases life <;> simp [admission, Admits]

/-- The life an admitted operation leaves its unit in (10_state.md R23). -/
def lifeAfter : Operation → Life
  | .new => .active
  | .absorb => .active
  | .final => .finalized

/-- A unit that starts in this life admits each operation in the life that the operations before it have left. -/
def Admitted : Life → List Operation → Prop
  | _, [] => True
  | life, op :: ops => Admits life op ∧ Admitted (lifeAfter op) ops

/-- The NEW that stands, in the grammar, before what an ACTIVE unit admits; a unit in another life starts a turn of its own. -/
def opening : Life → List Operation
  | .uninit => []
  | .active => [.new]
  | .finalized => []

theorem inGrammar_new {ops : List Operation} (h : InGrammar ops) : InGrammar (.new :: ops) := by
  obtain ⟨turns, rfl⟩ := h
  exact ⟨(0, false) :: turns, rfl⟩

theorem inGrammar_new_final {ops : List Operation} (h : InGrammar ops) : InGrammar (.new :: .final :: ops) := by
  obtain ⟨turns, rfl⟩ := h
  exact ⟨(0, true) :: turns, rfl⟩

/-- One more ABSORB fits behind a turn's NEW. -/
theorem inGrammar_new_absorb {ops : List Operation} (h : InGrammar (.new :: ops)) : InGrammar (.new :: .absorb :: ops) := by
  obtain ⟨turns, hturns⟩ := h
  cases turns with
  | nil => cases hturns
  | cons t turns =>
    cases hturns
    exact ⟨(t.1 + 1, t.2) :: turns, rfl⟩

theorem inGrammar_of_admitted {life : Life} {ops : List Operation} (h : Admitted life ops) : InGrammar (opening life ++ ops) := by
  induction ops generalizing life with
  | nil =>
    have hnil : InGrammar [] := ⟨[], rfl⟩
    cases life with
    | uninit => exact hnil
    | active => exact inGrammar_new hnil
    | finalized => exact hnil
  | cons op ops ih =>
    obtain ⟨hop, hops⟩ := h
    have hrest := ih hops
    cases op with
    | new =>
      cases life with
      | uninit => exact hrest
      | active => exact inGrammar_new hrest
      | finalized => exact hrest
    | absorb =>
      obtain rfl : life = .active := hop.resolve_left (by decide)
      exact inGrammar_new_absorb hrest
    | final =>
      obtain rfl : life = .active := hop.resolve_left (by decide)
      exact inGrammar_new_final hrest

/-- A turn is admitted in every life, and leaves what follows it to the life it ends in. -/
theorem admitted_turn_append {ops : List Operation} (hops : ∀ life, Admitted life ops) (t : Nat × Bool) (life : Life) :
    Admitted life (turn t ++ ops) := by
  obtain ⟨k, final⟩ := t
  refine ⟨.inl rfl, ?_⟩
  induction k with
  | zero =>
    cases final with
    | false => exact hops _
    | true => exact ⟨.inr rfl, hops _⟩
  | succ k ih => exact ⟨.inr rfl, ih⟩

theorem admitted_of_inGrammar {ops : List Operation} (h : InGrammar ops) (life : Life) : Admitted life ops := by
  obtain ⟨turns, rfl⟩ := h
  induction turns generalizing life with
  | nil => trivial
  | cons t turns ih => exact admitted_turn_append ih t life

/-- From UNINIT a unit admits exactly the sequences of the grammar (R232). -/
theorem admitted_uninit_iff {ops : List Operation} : Admitted .uninit ops ↔ InGrammar ops :=
  ⟨inGrammar_of_admitted, fun h => admitted_of_inGrammar h .uninit⟩

end Sys2Proof.Safety

/-! ### Runs without faults (70_reset_and_hazards.md R232) -/

namespace Sys2Proof.Machine

open Sys2Proof.Safety

theorem unitOperations_cons_same (i : Instr) (is : List Instr) :
    unitOperations i.unit (i :: is) = i.operation :: unitOperations i.unit is := by
  simp [unitOperations]

theorem unitOperations_cons_other {i : Instr} {u : UnitSel} (h : i.unit ≠ u) (is : List Instr) :
    unitOperations u (i :: is) = unitOperations u is := by
  simp [unitOperations, h]

/-- There are two units. -/
theorem eq_u64_of_ne_u32 {u : UnitSel} (h : u ≠ .u32) : u = .u64 := by
  cases u with
  | u32 => exact absurd rfl h
  | u64 => rfl

theorem eq_u32_of_ne_u64 {u : UnitSel} (h : u ≠ .u64) : u = .u32 := by
  cases u with
  | u32 => rfl
  | u64 => exact absurd rfl h

theorem lifeOf_completed_other {i : Instr} {u : UnitSel} (h : i.unit ≠ u) (s : State) :
    lifeOf (completed i s) u = lifeOf s u := by
  cases u with
  | u32 => exact congrArg HashUnit.life (completed_u32_of_u64 (eq_u64_of_ne_u32 h) s)
  | u64 => exact congrArg HashUnit.life (completed_u64_of_u32 (eq_u32_of_ne_u64 h) s)

theorem countOf_completed_other {i : Instr} {u : UnitSel} (h : i.unit ≠ u) (s : State) :
    countOf (completed i s) u = countOf s u := by
  cases u with
  | u32 => exact congrArg HashUnit.count (completed_u32_of_u64 (eq_u64_of_ne_u32 h) s)
  | u64 => exact congrArg HashUnit.count (completed_u64_of_u32 (eq_u32_of_ne_u64 h) s)

/-- A completed command leaves the life of its operation; ABSORB keeps the ACTIVE that admitted it (R104, R105, R169). -/
theorem lifeOf_completed_same {i : Instr} {s : State} (h : Admits (lifeOf s i.unit) i.operation) :
    lifeOf (completed i s) i.unit = lifeAfter i.operation := by
  cases i with
  | new32 seed => rfl
  | absorb32 data => exact h.resolve_left (by simp [Instr.operation])
  | final32 => rfl
  | new64 seed => rfl
  | absorb64 data => exact h.resolve_left (by simp [Instr.operation])
  | final64 => rfl

/-- NEW starts the count at 0, and every other command adds its data to it (10_state.md R22). -/
theorem countOf_completed_same (i : Instr) (s : State) :
    countOf (completed i s) i.unit = if i.operation = .new then 0 else countOf s i.unit + i.data.length := by
  cases i <;> rfl

/-- Each unit admits its own commands of a sequence, from the life it has. -/
def UnitsAdmit (s : State) (is : List Instr) : Prop := ∀ u, Admitted (lifeOf s u) (unitOperations u is)

/-- The first command concerns its own unit alone, and hands both units to the others in the lives it leaves. -/
theorem unitsAdmit_cons_iff {i : Instr} {is : List Instr} {s : State} :
    UnitsAdmit s (i :: is) ↔ Admits (lifeOf s i.unit) i.operation ∧ UnitsAdmit (completed i s) is := by
  have hother {u : UnitSel} (hu : i.unit ≠ u) : Admitted (lifeOf s u) (unitOperations u (i :: is)) ↔
      Admitted (lifeOf (completed i s) u) (unitOperations u is) := by
    rw [unitOperations_cons_other hu, lifeOf_completed_other hu]
  have hsame (h : Admits (lifeOf s i.unit) i.operation) :
      Admitted (lifeOf s i.unit) (unitOperations i.unit (i :: is)) ↔
        Admitted (lifeOf (completed i s) i.unit) (unitOperations i.unit is) := by
    rw [unitOperations_cons_same, lifeOf_completed_same h, Admitted, and_iff_right h]
  have hall (h : Admits (lifeOf s i.unit) i.operation) : UnitsAdmit s (i :: is) ↔ UnitsAdmit (completed i s) is :=
    forall_congr' fun u => if hu : i.unit = u then hu ▸ hsame h else hother hu
  refine ⟨fun h => ?_, fun h => (hall h.1).mpr h.2⟩
  have hfirst := h i.unit
  rw [unitOperations_cons_same] at hfirst
  exact ⟨hfirst.1, (hall hfirst.1).mp h⟩

/-- From UNINIT the runs that the units take are those in the grammar (R232). -/
theorem unitsAdmit_iff_inGrammar {s : State} (h : ∀ u, lifeOf s u = .uninit) (is : List Instr) :
    UnitsAdmit s is ↔ InGrammar (unitOperations .u32 is) ∧ InGrammar (unitOperations .u64 is) := by
  simp only [UnitsAdmit, h, admitted_uninit_iff]
  refine ⟨fun hall => ⟨hall .u32, hall .u64⟩, fun ⟨h32, h64⟩ u => ?_⟩
  cases u with
  | u32 => exact h32
  | u64 => exact h64

/-- n more bytes overflow no count: neither one that a NEW starts, nor that of an ACTIVE unit (R202, check 4). -/
structure HasRoom (s : State) (n : Nat) : Prop where
  fresh : n ≤ 2 ^ s.config.countWidth - 1
  active : ∀ u, lifeOf s u = .active → countOf s u + n ≤ 2 ^ s.config.countWidth - 1

/-- A command its unit admits completes when there is room for its data. -/
theorem checkOf_eq_none_of_admits {i : Instr} {s : State} {n : Nat} (hadmits : Admits (lifeOf s i.unit) i.operation)
    (hroom : HasRoom s (i.data.length + n)) : checkOf i s = none := by
  rw [checkOf_eq_admission, admission_eq_none_iff]
  refine ⟨hadmits, fun habsorb => decide_eq_false ?_⟩
  have hcount := hroom.active i.unit (hadmits.resolve_left (by simp [habsorb]))
  omega

/-- A completed command uses its own data's part of the room. -/
theorem HasRoom.completed {i : Instr} {s : State} {n : Nat} (hadmits : Admits (lifeOf s i.unit) i.operation)
    (hroom : HasRoom s (i.data.length + n)) : HasRoom (completed i s) n := by
  obtain ⟨hfresh, hactive⟩ := hroom
  refine ⟨by rw [completed_config]; omega, fun u hu => ?_⟩
  rw [completed_config]
  by_cases hiu : i.unit = u
  · subst hiu
    rw [countOf_completed_same]
    split
    · omega
    · next hnew =>
      have hcount := hactive i.unit (hadmits.resolve_left hnew)
      omega
  · rw [lifeOf_completed_other hiu] at hu
    rw [countOf_completed_other hiu]
    have hcount := hactive u hu
    omega

/-- Commands that are admitted by their units and whose data has room all complete. -/
theorem execAll_running_of_unitsAdmit {is : List Instr} {s : State} (hs : Running s) (hadmit : UnitsAdmit s is)
    (hroom : HasRoom s (totalData is)) : ∃ t, execAll is s = .next t ∧ Running t := by
  induction is generalizing s with
  | nil => exact ⟨s, rfl, hs⟩
  | cons i is ih =>
    obtain ⟨hfirst, hrest⟩ := unitsAdmit_cons_iff.mp hadmit
    have hsum : totalData (i :: is) = i.data.length + totalData is := by simp [totalData]
    rw [hsum] at hroom
    rw [execAll_cons_of_next (exec_completes hs (checkOf_eq_none_of_admits hfirst hroom))]
    exact ih (running_completed hs) hrest (hroom.completed hfirst)

/-- A command that leaves the block running was admitted by its unit and has completed. -/
theorem admits_of_exec_running {i : Instr} {s t : State} (h : exec i s = .next t) (ht : Running t) :
    Admits (lifeOf s i.unit) i.operation ∧ t = completed i s := by
  obtain ⟨-, ⟨c, -, rfl⟩ | ⟨hcheck, rfl⟩⟩ := exec_next_cases h
  · exact absurd ht (not_running_raiseFault s c i.unit)
  · rw [checkOf_eq_admission, admission_eq_none_iff] at hcheck
    exact ⟨hcheck.1, rfl⟩

/-- The commands of a run without a fault were admitted by their units. -/
theorem unitsAdmit_of_execAll_running {is : List Instr} {s t : State} (h : execAll is s = .next t) (ht : Running t) :
    UnitsAdmit s is := by
  induction is generalizing s with
  | nil => exact fun _ => trivial
  | cons i is ih =>
    obtain ⟨v, hv, hall⟩ := execAll_cons_next h
    obtain ⟨hfirst, rfl⟩ := admits_of_exec_running hv (running_of_execAll hall ht)
    exact unitsAdmit_cons_iff.mpr ⟨hfirst, ih hall⟩

/-- Settles O53: a run without faults is one whose commands are admitted by their units, life by life, and that is the grammar. -/
theorem faultFreeRunsFollowTheGrammar : Obligations.FaultFreeRunsFollowTheGrammar := by
  intro is s hs h32 h64
  have hlife (u : UnitSel) : lifeOf s u = .uninit := by
    cases u with
    | u32 => exact h32
    | u64 => exact h64
  have hgrammar := unitsAdmit_iff_inGrammar hlife is
  refine ⟨fun hdata hg32 hg64 => ?_, fun t h ht => hgrammar.mp (unitsAdmit_of_execAll_running h ht)⟩
  have hroom : HasRoom s (totalData is) := ⟨hdata, fun u hu => by simp [hlife u] at hu⟩
  exact execAll_running_of_unitsAdmit hs (hgrammar.mpr ⟨hg32, hg64⟩) hroom

end Sys2Proof.Machine
